-- ==== Sys2Proof/Word.lean ====
section
/-! DEFINITION. The words of the block: every quantity is an unsigned bit vector (R6) and a level of a
line is one bit (R48). -/

namespace Sys2Proof

/-- One byte of a command or of a response string (R60). -/
abbrev Byte := BitVec 8

/-- A TemperatureReading: a count of 0.25 °C, unsigned, 0..4095 (R8, R19). -/
abbrev Ticks := BitVec 12

/-- The 16 bits that one sample clocks in (R61); bit 15 is the first on the line. -/
abbrev Frame := BitVec 16

/-- The level of a digital line: `true` is high, 1 (R7). -/
abbrev Level := Bool

end Sys2Proof
end

