-- ==== Sys2Proof/Config.lean ====
section
/-! DEFINITION. What an implementation fixes: the parameters of R4, and the free values the spec leaves
open. A free value is a constant without a body, applied to the counter `State.fresh`: nothing in Lean can
evaluate it, so a claim that mentions it holds whatever it is. -/

namespace Sys2Proof.Config

/-- Number of bits clocked per sample (R4). -/
def frameBits : Nat := 16

/-- Number of low frame bits discarded (R4, R61). -/
def dropBits : Nat := 3

/-- Selector value of the temperature channel (R4, R42). -/
def chTemp : BitVec 2 := 0

/-- Selector value of the status channel (R4, R42). -/
def chStatus : BitVec 2 := 1

/-- The parameters of R4: fixed before INIT, written by no operation (R29). -/
structure Params where
  /-- `SOFT_LIMIT`, in Ticks. -/
  softLimit : Nat
  /-- `HARD_LIMIT`, in Ticks. -/
  hardLimit : Nat
  /-- `PERIOD`, from cycle start to cycle start. -/
  period : Nat
  /-- `T_HALF_MIN`, the lower bound of every half-cycle hold. -/
  tHalfMin : Nat
  /-- `T_HALF_MAX`, the nominal upper bound of a hold, relied on by nothing (R217). -/
  tHalfMax : Nat
  /-- `T_YIELD`, the length of one idle-wait yield (OPEN in the spec, D3). -/
  tYield : Nat
  /-- `TEMP_RESET`, the value of TEMP after INIT (D8). -/
  tempReset : Ticks
  /-- `PIN_CS`, opaque (D10). -/
  pinCs : Nat
  /-- `PIN_CLK`, opaque (D10). -/
  pinClk : Nat
  /-- `PIN_DATA`, opaque (D10). -/
  pinData : Nat
  /-- `PIN_HEAT`, opaque (D10). -/
  pinHeat : Nat
deriving DecidableEq, Repr

/-- The defaults of R4. DESIGN CHOICE (log 4): the spec leaves `T_YIELD` and the four pins open; 1 ms and 0
stand here only so that `State.reset` is a value. -/
def defaults : Params where
  softLimit := 2151
  hardLimit := 2662
  period := 1000
  tHalfMin := 10
  tHalfMax := 12
  tYield := 1
  tempReset := 0
  pinCs := 0
  pinClk := 0
  pinData := 0
  pinHeat := 0

/-- The constraints on the parameters (R4, R207): the rules of the block hold only for such parameters. -/
def Params.ok (p : Params) : Bool :=
  decide (p.softLimit < p.hardLimit) && decide (p.hardLimit ≤ 4095) &&
  decide (p.tHalfMin ≤ p.tHalfMax) && decide (32 * p.tHalfMax < p.period) &&
  decide (0 < p.tYield) && decide (p.tYield < p.period)

/-- The level of DATA at a LineRead for which no level is listed: any level (R14, U2; log 8). -/
opaque anyLevel : Nat → Bool

/-- By how much a hold or a yield outlasts its lower bound: any time (R217, U5; log 9). -/
opaque anyExcess : Nat → Nat

/-- How much time passes in a step of the environment that names no amount: any time (R24; log 20). -/
opaque anyDelay : Nat → Nat

/-- The value of DEADLINE after INIT: any instant (R32; log 6). -/
opaque anyDeadline : Nat → Nat

/-- The value of a one-bit register of an unloaded block: any value (R33, U7; log 19). -/
opaque anyBit : Nat → Bool

/-- The value of a `w`-bit register of an unloaded block: any value (R33, U7; log 19). -/
opaque anyBits : (w : Nat) → Nat → BitVec w

end Sys2Proof.Config
end

