-- ==== Sys2Proof/Syntax.lean ====
section
/-! DEFINITION. The operations of the block, one constructor per row of spec/opcode_table.json (R75). The bits a
format carries and the operation ignores are operands too, so that no bit of an encoding is dropped. -/

namespace Sys2Proof

/-- The twenty operations of R75. -/
inductive Instr where
  /-- BADCHAN: a host command on a selector that names no channel (R150). -/
  | badchan (op chan : BitVec 2) (byte : Byte)
  /-- OPEN.TEMP (R141). -/
  | openTemp (byte : Byte)
  /-- OPEN.STATUS (R142). -/
  | openStatus (byte : Byte)
  /-- READ.TEMP (R143). -/
  | readTemp (byte : Byte)
  /-- READ.STATUS (R144). -/
  | readStatus (byte : Byte)
  /-- WRITE.TEMP (R145). -/
  | writeTemp (byte : Byte)
  /-- WRITE.STATUS.ON, the byte being `'1'` (R146). -/
  | writeStatusOn
  /-- WRITE.STATUS.OFF, any other byte (R147). -/
  | writeStatusOff (byte : Byte)
  /-- RELEASE.TEMP (R148). -/
  | releaseTemp (byte : Byte)
  /-- RELEASE.STATUS (R149). -/
  | releaseStatus (byte : Byte)
  /-- REQUEST_ON; `ticks` is don't-care (R121, R73). -/
  | requestOn (ticks : Ticks)
  /-- REQUEST_OFF; `ticks` is don't-care (R122, R73). -/
  | requestOff (ticks : Ticks)
  /-- FORCE_OFF; `ticks` is don't-care (R123, R73). -/
  | forceOff (ticks : Ticks)
  /-- UPDATE_TEMPERATURE with the reading to publish (R124). -/
  | updateTemperature (ticks : Ticks)
  /-- SAMPLE with the frame the sensor presents (R80, R88). -/
  | sample (frame : Frame)
  /-- WD_CYCLE: one step of the watchdog sequencer, the one WDPH selects (R100). -/
  | wdCycle
  /-- INIT (R201, R205). -/
  | init
  /-- STOP (R202). -/
  | stop
  /-- KILL (R203). -/
  | kill
  /-- SHUTDOWN (R204). -/
  | shutdown
deriving DecidableEq, Repr

/-- The name of an operation in spec/opcode_table.json. -/
def Instr.mnemonic : Instr → String
  | .badchan _ _ _ => "BADCHAN"
  | .openTemp _ => "OPEN.TEMP"
  | .openStatus _ => "OPEN.STATUS"
  | .readTemp _ => "READ.TEMP"
  | .readStatus _ => "READ.STATUS"
  | .writeTemp _ => "WRITE.TEMP"
  | .writeStatusOn => "WRITE.STATUS.ON"
  | .writeStatusOff _ => "WRITE.STATUS.OFF"
  | .releaseTemp _ => "RELEASE.TEMP"
  | .releaseStatus _ => "RELEASE.STATUS"
  | .requestOn _ => "REQUEST_ON"
  | .requestOff _ => "REQUEST_OFF"
  | .forceOff _ => "FORCE_OFF"
  | .updateTemperature _ => "UPDATE_TEMPERATURE"
  | .sample _ => "SAMPLE"
  | .wdCycle => "WD_CYCLE"
  | .init => "INIT"
  | .stop => "STOP"
  | .kill => "KILL"
  | .shutdown => "SHUTDOWN"

end Sys2Proof
end

