-- ==== Sys2Proof/WellFormed.lean ====
section
/-! DEFINITION. Which terms of `Instr` stand for an operation the block has (R64, R65, R73). -/

namespace Sys2Proof

/-- BADCHAN is an operation only on a selector with its high bit set (R42, R150). -/
def chanNamesNoChannel (chan : BitVec 2) : Bool := chan.getLsbD 1

/-- WRITE.STATUS.OFF is an operation only for a byte other than `'1'` = 0x31 (R65, R147). -/
def byteRequestsOff (byte : Byte) : Bool := byte != 0x31

/-- The well-formed operations: every other operand may have any value (R73). -/
def Instr.wellFormed : Instr → Bool
  | .badchan _ chan _ => chanNamesNoChannel chan
  | .openTemp _ => true
  | .openStatus _ => true
  | .readTemp _ => true
  | .readStatus _ => true
  | .writeTemp _ => true
  | .writeStatusOn => true
  | .writeStatusOff byte => byteRequestsOff byte
  | .releaseTemp _ => true
  | .releaseStatus _ => true
  | .requestOn _ => true
  | .requestOff _ => true
  | .forceOff _ => true
  | .updateTemperature _ => true
  | .sample _ => true
  | .wdCycle => true
  | .init => true
  | .stop => true
  | .kill => true
  | .shutdown => true

end Sys2Proof
end

