-- ==== Sys2Proof/Decode.lean ====
section
/-! DEFINITION. The decoder and the encoder of the block's formats (R60 to R75). A word is presented at one
port of the block, and the port fixes its format; the word's number alone does not (log 3). -/

namespace Sys2Proof

/-- The formats in which an operation is selected (R60, R75). -/
inductive Format where
  /-- A host command, 12 bits (R63). -/
  | cmd
  /-- A request to CoilInterlock, 14 bits (R71). -/
  | ireq
  /-- A frame of the sensor, 16 bits (R61). -/
  | frame
  /-- A lifecycle command, 2 bits (R72). -/
  | life
  /-- The watchdog sequencer, which has no encoding (R75). -/
  | sequencer
deriving DecidableEq, Repr

/-- The length of a format in bits (R60). -/
def Format.width : Format → Nat
  | .cmd => 12
  | .ireq => 14
  | .frame => 16
  | .life => 2
  | .sequencer => 0

/-- A word as it is presented: the port it comes by and its number, bit 0 the least significant (R6). -/
structure PortWord where
  format : Format
  bits : Nat
deriving DecidableEq, Repr

/-- Why a presented word is no operation. -/
inductive DecodeError where
  /-- The number has more bits than the format (R60 fixes every length). -/
  | wordTooWide
deriving DecidableEq, Repr

/-- What the decoder answers. -/
inductive Decoded where
  | instr (i : Instr)
  | rejected (e : DecodeError)
deriving DecidableEq, Repr

/-- The instruction of an answer, if it is one. -/
def Decoded.toOption : Decoded → Option Instr
  | .instr i => some i
  | .rejected _ => none

/-- Decoding of a host command word, in the order of R64: the selector first, then the operation, then for a
status write the byte (R65). -/
def decodeCmd (w : BitVec 12) : Instr :=
  let op : BitVec 2 := w.extractLsb' 10 2
  let chan : BitVec 2 := w.extractLsb' 8 2
  let byte : Byte := w.extractLsb' 0 8
  if chanNamesNoChannel chan then .badchan op chan byte
  else if op = 0 then if chan = Config.chTemp then .openTemp byte else .openStatus byte
  else if op = 1 then if chan = Config.chTemp then .readTemp byte else .readStatus byte
  else if op = 2 then
    if chan = Config.chTemp then .writeTemp byte
    else if byteRequestsOff byte then .writeStatusOff byte else .writeStatusOn
  else if chan = Config.chTemp then .releaseTemp byte else .releaseStatus byte

/-- Decoding of an interlock request (R71). -/
def decodeIreq (w : BitVec 14) : Instr :=
  let code : BitVec 2 := w.extractLsb' 12 2
  let ticks : Ticks := w.extractLsb' 0 12
  if code = 0 then .requestOn ticks
  else if code = 1 then .requestOff ticks
  else if code = 2 then .forceOff ticks
  else .updateTemperature ticks

/-- Decoding of a lifecycle code (R72). -/
def decodeLife (w : BitVec 2) : Instr :=
  if w = 0 then .init else if w = 1 then .stop else if w = 2 then .kill else .shutdown

/-- The decoder, total on every presented word; it rejects only a number that is too wide for its format. -/
def decode (p : PortWord) : Decoded :=
  if p.bits < 2 ^ p.format.width then
    match p.format with
    | .cmd => .instr (decodeCmd (BitVec.ofNat 12 p.bits))
    | .ireq => .instr (decodeIreq (BitVec.ofNat 14 p.bits))
    | .frame => .instr (.sample (BitVec.ofNat 16 p.bits))
    | .life => .instr (decodeLife (BitVec.ofNat 2 p.bits))
    | .sequencer => .instr .wdCycle
  else .rejected .wordTooWide

/-- A host command word from its fields: `op` in bits 11:10, `chan` in 9:8, `byte` in 7:0 (R63). -/
def cmdWord (op chan : BitVec 2) (byte : Byte) : PortWord :=
  ⟨.cmd, op.toNat * 2 ^ 10 + chan.toNat * 2 ^ 8 + byte.toNat⟩

/-- An interlock request from its fields: `code` in bits 13:12, `ticks` in 11:0 (R71). -/
def ireqWord (code : BitVec 2) (ticks : Ticks) : PortWord :=
  ⟨.ireq, code.toNat * 2 ^ 12 + ticks.toNat⟩

/-- A lifecycle command from its code (R72). -/
def lifeWord (code : BitVec 2) : PortWord := ⟨.life, code.toNat⟩

/-- The encoder: the word of each operation (R61, R63, R71, R72, R75). -/
def encode : Instr → PortWord
  | .badchan op chan byte => cmdWord op chan byte
  | .openTemp byte => cmdWord 0 Config.chTemp byte
  | .openStatus byte => cmdWord 0 Config.chStatus byte
  | .readTemp byte => cmdWord 1 Config.chTemp byte
  | .readStatus byte => cmdWord 1 Config.chStatus byte
  | .writeTemp byte => cmdWord 2 Config.chTemp byte
  | .writeStatusOn => cmdWord 2 Config.chStatus 0x31
  | .writeStatusOff byte => cmdWord 2 Config.chStatus byte
  | .releaseTemp byte => cmdWord 3 Config.chTemp byte
  | .releaseStatus byte => cmdWord 3 Config.chStatus byte
  | .requestOn ticks => ireqWord 0 ticks
  | .requestOff ticks => ireqWord 1 ticks
  | .forceOff ticks => ireqWord 2 ticks
  | .updateTemperature ticks => ireqWord 3 ticks
  | .sample frame => ⟨.frame, frame.toNat⟩
  | .wdCycle => ⟨.sequencer, 0⟩
  | .init => lifeWord 0
  | .stop => lifeWord 1
  | .kill => lifeWord 2
  | .shutdown => lifeWord 3

/-- The byte the front end presents for the bytes a client writes: the first, or 0x00 when there is none
(R66). -/
def presentedByte (data : List Byte) : Byte := data.headD 0x00

/-- The command word of a client's write of `data` to channel `chan` (R63, R66). -/
def writeWord (chan : BitVec 2) (data : List Byte) : PortWord := cmdWord 2 chan (presentedByte data)

/-- One row of spec/opcode_table.json: a word of the format is the operation when its `len` bits from bit `lo` up
(the bits under the row's mask) are `value`. -/
structure Row where
  mnemonic : String
  format : Format
  lo : Nat
  len : Nat
  value : Nat
deriving DecidableEq, Repr

/-- spec/opcode_table.json, in the order in which its rows are tested (R64, R75). -/
def opcodeTable : List Row :=
  [⟨"BADCHAN", .cmd, 9, 1, 1⟩,
   ⟨"OPEN.TEMP", .cmd, 8, 4, 0b0000⟩,
   ⟨"OPEN.STATUS", .cmd, 8, 4, 0b0001⟩,
   ⟨"READ.TEMP", .cmd, 8, 4, 0b0100⟩,
   ⟨"READ.STATUS", .cmd, 8, 4, 0b0101⟩,
   ⟨"WRITE.TEMP", .cmd, 8, 4, 0b1000⟩,
   ⟨"WRITE.STATUS.ON", .cmd, 0, 12, 0x931⟩,
   ⟨"WRITE.STATUS.OFF", .cmd, 8, 4, 0b1001⟩,
   ⟨"RELEASE.TEMP", .cmd, 8, 4, 0b1100⟩,
   ⟨"RELEASE.STATUS", .cmd, 8, 4, 0b1101⟩,
   ⟨"REQUEST_ON", .ireq, 12, 2, 0⟩,
   ⟨"REQUEST_OFF", .ireq, 12, 2, 1⟩,
   ⟨"FORCE_OFF", .ireq, 12, 2, 2⟩,
   ⟨"UPDATE_TEMPERATURE", .ireq, 12, 2, 3⟩,
   ⟨"SAMPLE", .frame, 0, 0, 0⟩,
   ⟨"WD_CYCLE", .sequencer, 0, 0, 0⟩,
   ⟨"INIT", .life, 0, 2, 0⟩,
   ⟨"STOP", .life, 0, 2, 1⟩,
   ⟨"KILL", .life, 0, 2, 2⟩,
   ⟨"SHUTDOWN", .life, 0, 2, 3⟩]

/-- Whether a row takes a presented word. -/
def Row.takes (r : Row) (p : PortWord) : Bool :=
  (r.format == p.format) && (p.bits / 2 ^ r.lo % 2 ^ r.len == r.value)

/-- The first row of the table that takes a word. -/
def tableRow (p : PortWord) : Option Row := opcodeTable.find? (fun r => r.takes p)

/-- The port that a bare number of the opcode table belongs to. DESIGN CHOICE (log 3): the formats share
numbers and the spec tells them apart by their ports only; a length of 0, 2, 12 or 14 bits names its format, a
whole byte is a lifecycle code, and of two whole bytes a number below 0x1000 is a host command, one below
0x4000 an interlock request, any other a frame. -/
def tableFormat (nbits w : Nat) : Format :=
  if nbits = 0 then .sequencer
  else if nbits ≤ 8 then .life
  else if nbits = 12 then .cmd
  else if nbits = 14 then .ireq
  else if w < 0x1000 then .cmd
  else if w < 0x4000 then .ireq
  else .frame

/-- The presented word of a bare number of the opcode table. -/
def tableWord (nbits w : Nat) : PortWord := ⟨tableFormat nbits w, w⟩

/-- The instruction the decoder reads from a bare number of the opcode table. -/
def decodeTableWord (nbits w : Nat) : Option Instr := (decode (tableWord nbits w)).toOption

end Sys2Proof
end

