-- ==== Sys2Proof/Machine/State.lean ====
section
/-! DEFINITION. The state of the block: the registers of R10, the parameters of R4, the free inputs of the
environment and the outputs, all plain data. -/

namespace Sys2Proof.Machine

open Sys2Proof

/-- The four digital lines (R41). -/
inductive Line where
  | cs | clk | data | heat
deriving DecidableEq, Repr

/-- The lines the block drives (R41). -/
inductive OutputLine where
  | cs | clk | heat
deriving DecidableEq, Repr

/-- An output line as one of the four lines. -/
def OutputLine.line : OutputLine → Line
  | .cs => .cs
  | .clk => .clk
  | .heat => .heat

/-- One bit for each line: the reservations OWN_l (R28), or the answers of Acquire (R201). -/
structure LineBits where
  cs : Bool
  clk : Bool
  data : Bool
  heat : Bool
deriving DecidableEq, Repr

/-- The same bit for every line. -/
def LineBits.all (b : Bool) : LineBits := ⟨b, b, b, b⟩

/-- The bit of a line. -/
def LineBits.get (f : LineBits) : Line → Bool
  | .cs => f.cs
  | .clk => f.clk
  | .data => f.data
  | .heat => f.heat

/-- Writing the bit of a line. -/
def LineBits.set (f : LineBits) (l : Line) (b : Bool) : LineBits :=
  match l with
  | .cs => { f with cs := b }
  | .clk => { f with clk := b }
  | .data => { f with data := b }
  | .heat => { f with heat := b }

/-- SLPH, the phase of the serial engine (R18). -/
inductive SlPhase where
  | idle | select | rise | holdHi | sample | fall | holdLo | deselect
deriving DecidableEq, Repr

/-- The 3-bit code of a phase (R18). -/
def SlPhase.code : SlPhase → BitVec 3
  | .idle => 0
  | .select => 1
  | .rise => 2
  | .holdHi => 3
  | .sample => 4
  | .fall => 5
  | .holdLo => 6
  | .deselect => 7

/-- The phase of a 3-bit code (R18): every code is a phase. -/
def SlPhase.ofCode (c : BitVec 3) : SlPhase :=
  if c = 0 then .idle else if c = 1 then .select else if c = 2 then .rise else if c = 3 then .holdHi
  else if c = 4 then .sample else if c = 5 then .fall else if c = 6 then .holdLo else .deselect

/-- WDPH, the phase of the watchdog (R22). -/
inductive WdPhase where
  | off | top | arm | sample | publish | idle | term
deriving DecidableEq, Repr

/-- The 3-bit code of a phase (R22). -/
def WdPhase.code : WdPhase → BitVec 3
  | .off => 0
  | .top => 1
  | .arm => 2
  | .sample => 3
  | .publish => 4
  | .idle => 5
  | .term => 6

/-- The status of a response (R70). -/
inductive Status where
  | ok | refused | fault
deriving DecidableEq, Repr

/-- The number of a status (R70). -/
def Status.number : Status → Nat
  | .ok => 0
  | .refused => 1
  | .fault => 2

/-- The code of a response (R171). -/
inductive FaultCode where
  /-- No fault. -/
  | none
  /-- FAULT_BADCHAN (R172). -/
  | badChan
  /-- FAULT_XFER (R173). -/
  | xfer
  /-- FAULT_NOLINE (R174). -/
  | noLine
deriving DecidableEq, Repr

/-- The number of a fault code (R171). -/
def FaultCode.number : FaultCode → Nat
  | .none => 0
  | .badChan => 1
  | .xfer => 2
  | .noLine => 3

/-- What a command ends with: `(status, code, data)` (R70). -/
structure Response where
  status : Status
  code : FaultCode
  data : List Byte
deriving DecidableEq, Repr

/-- The diagnostic strobes (R190). -/
inductive Event where
  /-- EV_TURNED_ON -/
  | turnedOn
  /-- EV_TURNED_OFF -/
  | turnedOff
  /-- EV_OVERTEMP -/
  | overTemp
  /-- EV_REFUSED -/
  | refused
deriving DecidableEq, Repr

/-- The side inputs presented with a command: xfer_fault (R63), and for INIT which lines DigitalIO answers
`busy` for (R201, R205). -/
structure SideInputs where
  xferFault : Bool
  busy : LineBits
deriving DecidableEq, Repr

/-- No transfer fault, every Acquire answered `ok`. -/
def SideInputs.quiet : SideInputs := ⟨false, .all false⟩

/-- One turn of the interleaving (R5, R51, R74). -/
inductive Turn where
  /-- An agent takes a step: the word it presents, with its side inputs. -/
  | present (word : PortWord) (side : SideInputs)
  /-- The environment lets `dt` milliseconds pass (R5, R24). -/
  | wait (dt : Nat)
deriving DecidableEq, Repr

/-- The state of the block. The first fifteen fields are the tuple of R10; `params` is configuration (R29);
`now` to `fresh` are the inputs of the environment and the progress of the agents; `response` and `events` are
the outputs. -/
structure State where
  /-- CS, the output latch of chip-select: `false` selects the sensor (R11). -/
  cs : Level
  /-- CLK, the output latch of the clock (R12). -/
  clk : Level
  /-- HEAT, the output latch of the heat line: `true` powers the coil (R13). -/
  heat : Level
  /-- SR, the shift register (R15). -/
  sr : Frame
  /-- BITCNT, the bits sampled so far in this frame (R16). -/
  bitcnt : BitVec 5
  /-- RESULT, the reading the last finished sample returned (R17). -/
  result : Ticks
  /-- SLPH (R18). -/
  slph : SlPhase
  /-- TEMP, the latest published reading (R19). -/
  temp : Ticks
  /-- HEATING: `true` is On (R20). -/
  heating : Bool
  /-- WDPH (R22). -/
  wdph : WdPhase
  /-- DEADLINE, an instant in milliseconds, a natural number without bound (R23, D1). -/
  deadline : Nat
  /-- STOPFLAG (R25). -/
  stopflag : Bool
  /-- KILL (R26). -/
  kill : Bool
  /-- LOADED (R27). -/
  loaded : Bool
  /-- OWN_CS, OWN_CLK, OWN_DATA, OWN_HEAT (R28). -/
  own : LineBits
  /-- The parameters of R4, written by no operation (R29; log 4). -/
  params : Config.Params
  /-- NOW, the environment's current time, an instant (R24; log 7). -/
  now : Nat
  /-- The levels DATA will show, one per LineRead; a free value where the list is empty (R14; log 8). -/
  sensor : List Level
  /-- The side inputs of the command being taken (R63, R201; log 10). -/
  side : SideInputs
  /-- The turns still to be taken, in order (R5; log 1). -/
  inbox : List Turn
  /-- Whether the lifecycle agent has taken step 1 of SHUTDOWN and step 2 is still to come (R204; log 13). -/
  shutdownRequested : Bool
  /-- The number of the next free value (log 21). -/
  fresh : Nat
  /-- What the last instruction handed back (R70; log 17). -/
  response : Option Response
  /-- The strobes pulsed so far, a write-only trace (R190; log 18). -/
  events : List Event
deriving DecidableEq, Repr

/-- Why the model stops with a fault. -/
inductive Fault where
  /-- LineWrite or LineRead on a line with OWN_l = 0, which R222 and U6 make a fault of the model. Raised by
  the line operations only. Safe: the machine stops where the spec says nothing of the line. -/
  | lineNotOwned (line : Line)
deriving DecidableEq, Repr

/-- Why a presented instruction has no step. -/
inductive Refusal where
  /-- The instruction has no meaning in this model yet. Safe. -/
  | notModelled (mnemonic : String)
  /-- A command, an interlock request or a watchdog step while LOADED = 0 (R206, U8). Safe: the spec gives it
  no meaning. -/
  | unloaded
  /-- INIT while LOADED = 1 (R201, U8). Safe: the spec gives it no step. -/
  | alreadyLoaded
  /-- WD_CYCLE in WD_TERM or WD_OFF, where the watchdog has no enabled step (R100, R106). Safe. -/
  | watchdogHasNoStep
  /-- SAMPLE where WD_ARM has not just started one (R91, R219). Safe: the spec lets nothing else start a
  sample. -/
  | sampleNotStarted
  /-- A micro-step of the serial engine in SL_IDLE (R18: next micro-step none). No instruction reaches it;
  it closes the match. Safe. -/
  | serialEngineIdle
deriving DecidableEq, Repr

/-- The outcome of a step of this machine. -/
abbrev Result := Host.Outcome State Fault Refusal

/-- The response `(OK, 0, "")`. -/
def okResponse : Response := ⟨.ok, .none, []⟩

/-- The machine right after reset: reset is a successful INIT (R32). DEADLINE, which the spec leaves
unspecified, and the fields that are the model's own have the values logs 1, 4, 6, 7, 8, 10, 13, 17, 18 and 21
name (DESIGN CHOICE). -/
def State.reset : State where
  cs := true
  clk := false
  heat := false
  sr := 0
  bitcnt := 0
  result := 0
  slph := .idle
  temp := Config.defaults.tempReset
  heating := false
  wdph := .top
  deadline := 0
  stopflag := false
  kill := false
  loaded := true
  own := .all true
  params := Config.defaults
  now := 0
  sensor := []
  side := .quiet
  inbox := []
  shutdownRequested := false
  fresh := 0
  response := some okResponse
  events := []

end Sys2Proof.Machine
end

