-- ==== Sys2Proof/Machine/Ops.lean ====
section
/-! DEFINITION. The named operations every meaning is written with: the primitives of R7, the response and the
fault response of R70 and R170, and the time and free values of the environment. -/

namespace Sys2Proof.Machine

open Sys2Proof

/-- Go on with `k` where an operation gives a next state; stop where it stops. -/
def andThen (o : Result) (k : State → Result) : Result :=
  match o with
  | .next s => k s
  | .fault r => .fault r
  | .refused r => .refused r

/-- Write the output latch of a line (R7, R11 to R13). -/
def State.driveLatch (s : State) (l : OutputLine) (b : Level) : State :=
  match l with
  | .cs => { s with cs := b }
  | .clk => { s with clk := b }
  | .heat => { s with heat := b }

/-- `LineWrite(l, b)` (R7): drive an output line. On a line the block does not own it is a fault of the model
(R222, U6; log 11). -/
def lineWrite (l : OutputLine) (b : Level) (s : State) : Result :=
  if s.own.get l.line then .next (s.driveLatch l b) else .fault (.lineNotOwned l.line)

/-- The level DATA shows now: the next listed one, or a free value (R14, U2; log 8). -/
def State.dataLevel (s : State) : Level := s.sensor.headD (Config.anyLevel s.fresh)

/-- The environment's inputs after one level of DATA has been taken. -/
def State.dataTaken (s : State) : State :=
  match s.sensor with
  | _ :: rest => { s with sensor := rest }
  | [] => { s with fresh := s.fresh + 1 }

/-- `LineRead(DATA)` (R7): go on with the level of the data line at this instant. On a line the block does not
own it is a fault of the model (R222, U6; log 11). -/
def lineRead (s : State) (k : Level → State → Result) : Result :=
  if s.own.data then k s.dataLevel s.dataTaken else .fault (.lineNotOwned .data)

/-- `Acquire(l) = ok ; OWN_l <- 1` and `Release(l) ; OWN_l <- 0` (R7, R28). -/
def State.setOwn (s : State) (l : Line) (b : Bool) : State := { s with own := s.own.set l b }

/-- Give back lines, in the order listed (R204, R205). -/
def releaseLines (ls : List Line) (s : State) : State := ls.foldl (fun t l => t.setOwn l false) s

/-- `hold(lo, hi)` (R7, R217): let time pass by `lo` or more. The excess is a free value and has no upper bound
(U5; log 9). -/
def hold (lo : Nat) (s : State) : State :=
  { s with now := s.now + (lo + Config.anyExcess s.fresh), fresh := s.fresh + 1 }

/-- `emit(EV_x)` (R7, R190): pulse a strobe once. -/
def emit (e : Event) (s : State) : State := { s with events := s.events ++ [e] }

/-- End a command with a response (R70). -/
def respond (r : Response) (s : State) : State := { s with response := some r }

/-- End a step that hands nothing back (log 17). -/
def noResponse (s : State) : State := { s with response := none }

/-- `return (OK, 0, data)` (R70). -/
def respondOk (data : List Byte) (s : State) : State := respond ⟨.ok, .none, data⟩ s

/-- `raise Fault(code)` (R7, R170): the response is the fault and nothing else is written. This is the block's
whole way of taking an exception: it saves nothing and transfers control nowhere (R182), so there is no return
from it (R183). -/
def raiseFault (code : FaultCode) (s : State) : State := respond ⟨.fault, code, []⟩ s

/-- The first test of every command but INIT: an unloaded block has no step for it (R64, R180, R206). -/
def whenLoaded (s : State) (k : State → Result) : Result :=
  if s.loaded then k s else .refused .unloaded

/-- The transfer test of READ and WRITE (R64, R151, R173): it comes before the operation, which a faulted
command does not perform. -/
def whenTransferred (s : State) (k : State → Result) : Result :=
  if s.side.xferFault then .next (raiseFault .xfer s) else k s

/-- The registers of an unloaded block hold unspecified values (R33, U6, U7; log 19): each becomes a free value.
LOADED, OWN_l and WDPH keep theirs, as R33 states them. -/
def unspecifyRegisters (s : State) : State :=
  { s with
    cs := Config.anyBit s.fresh
    clk := Config.anyBit (s.fresh + 1)
    heat := Config.anyBit (s.fresh + 2)
    heating := Config.anyBit (s.fresh + 3)
    stopflag := Config.anyBit (s.fresh + 4)
    kill := Config.anyBit (s.fresh + 5)
    sr := Config.anyBits 16 (s.fresh + 6)
    bitcnt := Config.anyBits 5 (s.fresh + 7)
    result := Config.anyBits 12 (s.fresh + 8)
    temp := Config.anyBits 12 (s.fresh + 9)
    slph := SlPhase.ofCode (Config.anyBits 3 (s.fresh + 10))
    deadline := Config.anyDeadline (s.fresh + 11)
    fresh := s.fresh + 12 }

/-- A step of the environment (R5, R24): time passes, and where the block is unloaded its registers may take
any value. -/
def environmentStep (dt : Nat) (s : State) : State :=
  if s.loaded then { s with now := s.now + dt }
  else unspecifyRegisters { s with now := s.now + dt }

end Sys2Proof.Machine
end

