-- ==== Sys2Proof/Machine/Operands.lean ====
section
/-! DEFINITION. The operand forms of the block: the reading in a frame (R61, R62), the bits of a frame in the
order of the line (R44), and the read strings (R67 to R69). -/

namespace Sys2Proof.Machine

open Sys2Proof

/-- The reading in a frame: `(frame >> 3) & 0xFFF`, which is `frame[14:3]` (R62). -/
def readingOf (frame : Frame) : Ticks := (frame >>> Config.dropBits).setWidth 12

/-- Shift one sampled bit into the shift register: `((SR << 1) | b)[15:0]` (R15, R84). -/
def shiftIn (sr : Frame) (b : Level) : Frame := (sr <<< 1) ||| (BitVec.ofBool b).setWidth 16

/-- The lowest `n` bits of a frame, the highest of them first. -/
def lowBitsFirst (frame : Frame) : Nat → List Level
  | 0 => []
  | n + 1 => frame.getLsbD n :: lowBitsFirst frame n

/-- The sixteen levels of a frame in the order in which they are clocked: bit 15 first, bit 0 last (R44, R61). -/
def frameLevels (frame : Frame) : List Level := lowBitsFirst frame Config.frameBits

/-- The ASCII digit of a number below ten: `0x30 + n` (R68; log 22). -/
def digit (n : Nat) : Byte := BitVec.ofNat 8 (0x30 + n)

/-- The decimal digits of `n`, most significant first, with `fuel` digits at most. -/
def decimalDigits : Nat → Nat → List Byte
  | 0, _ => []
  | fuel + 1, n => if n < 10 then [digit n] else decimalDigits fuel (n / 10) ++ [digit (n % 10)]

/-- `dec(n)` (R7, R68): the decimal digits of `n`, no sign, no leading zeros. `n + 1` digits are more than `n`
has. -/
def dec (n : Nat) : List Byte := decimalDigits (n + 1) n

/-- The newline that ends a read string (R67, R69). -/
def newline : Byte := 0x0A

/-- What READ of the temperature channel returns (R67, R143). -/
def temperatureString (t : Ticks) : List Byte := dec t.toNat ++ [newline]

/-- What READ of the status channel returns (R69, R144). -/
def statusString (heating : Bool) : List Byte := if heating then [0x31, newline] else [0x30, newline]

end Sys2Proof.Machine
end

