-- ==== Sys2Proof/Machine/Flags.lean ====
section
/-! DEFINITION. The conditions operations test (R35): the block has no condition-code register, each is computed
where it is used. -/

namespace Sys2Proof.Machine

open Sys2Proof

/-- `TEMP > SOFT_LIMIT`, strict and unsigned (R121, C2). -/
def aboveSoftLimit (s : State) : Bool := decide (s.temp.toNat > s.params.softLimit)

/-- `reading > HARD_LIMIT`, strict and unsigned (R104, C2). -/
def aboveHardLimit (s : State) (reading : Ticks) : Bool := decide (reading.toNat > s.params.hardLimit)

/-- A thermal breach: the reading is above the hard limit and the heater is On (R104, R179). -/
def breach (s : State) (reading : Ticks) : Bool := aboveHardLimit s reading && s.heating

/-- `STOPFLAG = 1 or KILL = 1` (R26, R101, R105). -/
def stopRequested (s : State) : Bool := s.stopflag || s.kill

/-- `BITCNT = 16` (R86). -/
def frameComplete (s : State) : Bool := s.bitcnt == BitVec.ofNat 5 Config.frameBits

/-- `NOW >= DEADLINE` (R105, D4). -/
def deadlinePassed (s : State) : Bool := decide (s.deadline ≤ s.now)

/-- Whether the watchdog agent has an enabled step (R100, R106, R206). -/
def watchdogEnabled (s : State) : Bool := s.loaded && (s.wdph != .off && s.wdph != .term)

/-- Whether step 2 of SHUTDOWN is enabled: step 1 is taken and the watchdog has ended (R204). STOPFLAG is not
looked at (R34; log 13). -/
def shutdownJoined (s : State) : Bool := s.loaded && (s.shutdownRequested && (s.wdph == .term))

end Sys2Proof.Machine
end

