-- ==== Sys2Proof/Machine/Interlock.lean ====
section
/-! DEFINITION. CoilInterlock, the heater state machine (R120 to R130). -/

namespace Sys2Proof.Machine

open Sys2Proof

/-- Write HEATING, drive the HEAT line to the same level and pulse a strobe: the one shape of the three
operations that change the heater state (R21, R121 to R123). -/
def setHeater (on : Bool) (e : Event) (s : State) : Result :=
  andThen (lineWrite .heat on { s with heating := on }) fun t => .next (emit e t)

/-- REQUEST_ON (R121): refused above the soft limit, and then the heater is Off whatever it was (C1); honoured
otherwise. -/
def requestOn (s : State) : Result :=
  if aboveSoftLimit s then setHeater false .refused s else setHeater true .turnedOn s

/-- What REQUEST_ON returns (R121, R175). -/
def requestOnStatus (s : State) : Status := if aboveSoftLimit s then .refused else .ok

/-- REQUEST_OFF (R122): unconditional. -/
def requestOff (s : State) : Result := setHeater false .turnedOff s

/-- FORCE_OFF (R123), the block's forced transition (R182): unconditional, it saves nothing. -/
def forceOff (s : State) : Result := setHeater false .turnedOff s

/-- UPDATE_TEMPERATURE (R124): `TEMP <- t`. -/
def updateTemperature (t : Ticks) (s : State) : State := { s with temp := t }

/-- The instruction REQUEST_ON (R121): its result is handed back as the status (log 16). -/
def execRequestOn (_ticks : Ticks) (s : State) : Result :=
  whenLoaded s fun s => andThen (requestOn s) fun t => .next (respond ⟨requestOnStatus s, .none, []⟩ t)

/-- The instruction REQUEST_OFF (R122). -/
def execRequestOff (_ticks : Ticks) (s : State) : Result :=
  whenLoaded s fun s => andThen (requestOff s) fun t => .next (respondOk [] t)

/-- The instruction FORCE_OFF (R123): it returns nothing. -/
def execForceOff (_ticks : Ticks) (s : State) : Result :=
  whenLoaded s fun s => andThen (forceOff s) fun t => .next (noResponse t)

/-- The instruction UPDATE_TEMPERATURE (R124): it returns nothing and compares nothing. -/
def execUpdateTemperature (ticks : Ticks) (s : State) : Result :=
  whenLoaded s fun s => .next (noResponse (updateTemperature ticks s))

end Sys2Proof.Machine
end

