-- ==== Sys2Proof/Machine/ControlSurface.lean ====
section
/-! DEFINITION. ControlSurface, the host command port (R140 to R156). Each command is one step, tested in the
order of R64: LOADED, then the selector (the decoder's BADCHAN), then the transfer, then the operation. -/

namespace Sys2Proof.Machine

open Sys2Proof

/-- BADCHAN (R150): FAULT_BADCHAN, whatever xfer_fault is; no state change. -/
def execBadchan (_op _chan : BitVec 2) (_byte : Byte) (s : State) : Result :=
  whenLoaded s fun s => .next (raiseFault .badChan s)

/-- OPEN.TEMP (R141): a no-op answered OK. -/
def execOpenTemp (_byte : Byte) (s : State) : Result :=
  whenLoaded s fun s => .next (respondOk [] s)

/-- OPEN.STATUS (R142): a no-op answered OK. -/
def execOpenStatus (_byte : Byte) (s : State) : Result :=
  whenLoaded s fun s => .next (respondOk [] s)

/-- READ.TEMP (R143): the string of TEMP. -/
def execReadTemp (_byte : Byte) (s : State) : Result :=
  whenLoaded s fun s => whenTransferred s fun s => .next (respondOk (temperatureString s.temp) s)

/-- READ.STATUS (R144): the string of HEATING, not of the HEAT line. -/
def execReadStatus (_byte : Byte) (s : State) : Result :=
  whenLoaded s fun s => whenTransferred s fun s => .next (respondOk (statusString s.heating) s)

/-- WRITE.TEMP (R145): accepted, no effect. -/
def execWriteTemp (_byte : Byte) (s : State) : Result :=
  whenLoaded s fun s => whenTransferred s fun s => .next (respondOk [] s)

/-- WRITE.STATUS.ON (R146): raises REQUEST_ON and answers what it returns. -/
def execWriteStatusOn (s : State) : Result :=
  whenLoaded s fun s => whenTransferred s fun s =>
    andThen (requestOn s) fun t => .next (respond ⟨requestOnStatus s, .none, []⟩ t)

/-- WRITE.STATUS.OFF (R147): raises REQUEST_OFF. -/
def execWriteStatusOff (_byte : Byte) (s : State) : Result :=
  whenLoaded s fun s => whenTransferred s fun s =>
    andThen (requestOff s) fun t => .next (respondOk [] t)

/-- RELEASE.TEMP (R148): no side effect. -/
def execReleaseTemp (_byte : Byte) (s : State) : Result :=
  whenLoaded s fun s => .next (respondOk [] s)

/-- RELEASE.STATUS (R149): raises FORCE_OFF; xfer_fault is ignored. -/
def execReleaseStatus (_byte : Byte) (s : State) : Result :=
  whenLoaded s fun s => andThen (forceOff s) fun t => .next (respondOk [] t)

end Sys2Proof.Machine
end

