-- ==== Sys2Proof/Machine/Lifecycle.lean ====
section
/-! DEFINITION. The lifecycle commands (R200 to R208). -/

namespace Sys2Proof.Machine

open Sys2Proof

/-- The order in which INIT acquires the lines (R201, D24). -/
def acquireOrder : List Line := [.cs, .clk, .data, .heat]

/-- The order in which SHUTDOWN releases them (R204). -/
def releaseOrder : List Line := [.heat, .data, .clk, .cs]

/-- Acquire lines in order (R201). On the first `busy` the lines acquired earlier are given back and the answer
is `false` (R205). -/
def acquireLines (acquired : List Line) : List Line → State → Bool × State
  | [], s => (true, s)
  | l :: rest, s =>
    if s.side.busy.get l then (false, releaseLines acquired s)
    else acquireLines (l :: acquired) rest (s.setOwn l true)

/-- The registers INIT writes (R201, R32). DEADLINE, which R32 leaves unspecified, takes a free value (log 6). -/
def initRegisters (s : State) : State :=
  { s with
    heating := false
    temp := s.params.tempReset
    sr := 0
    bitcnt := 0
    result := 0
    slph := .idle
    stopflag := false
    kill := false
    deadline := Config.anyDeadline s.fresh
    wdph := .top
    loaded := true
    shutdownRequested := false
    fresh := s.fresh + 1 }

/-- The idle levels INIT drives: chip-select high, clock low, heat low (R201). -/
def driveIdleLevels (s : State) : Result :=
  andThen (lineWrite .cs true s) fun s =>
    andThen (lineWrite .clk false s) fun s => lineWrite .heat false s

/-- INIT (R201), with its failure path (R205): a line that answers `busy` gives FAULT_NOLINE and the state INIT
started from (R170, R174). -/
def execInit (s : State) : Result :=
  if s.loaded then .refused .alreadyLoaded
  else
    let (acquiredAll, t) := acquireLines [] acquireOrder s
    if acquiredAll then andThen (driveIdleLevels t) fun t => .next (respondOk [] (initRegisters t))
    else .next (raiseFault .noLine t)

/-- STOP (R202): set the stop flag. -/
def execStop (s : State) : Result :=
  whenLoaded s fun s => .next (respondOk [] { s with stopflag := true })

/-- KILL (R203): set the kill request. -/
def execKill (s : State) : Result :=
  whenLoaded s fun s => .next (respondOk [] { s with kill := true })

/-- Step 1 of SHUTDOWN, the request (R204): no response yet. -/
def shutdownRequest (s : State) : State := noResponse { s with stopflag := true, shutdownRequested := true }

/-- Step 2 of SHUTDOWN, after the join (R204): release the lines and unload. HEATING and HEAT stay as they are
(R215). -/
def shutdownComplete (s : State) : State :=
  respondOk [] { releaseLines releaseOrder s with wdph := .off, loaded := false, shutdownRequested := false }

/-- SHUTDOWN (R204): one of its two steps. Where step 2 is not enabled, presenting it again is step 1 again,
which changes nothing the second time. -/
def execShutdown (s : State) : Result :=
  whenLoaded s fun s => .next (if shutdownJoined s then shutdownComplete s else shutdownRequest s)

end Sys2Proof.Machine
end

