-- ==== Sys2Proof/Machine/SensorLink.lean ====
section
/-! DEFINITION. SensorLink, the serial engine: its micro-steps (R81 to R87) and SAMPLE (R80, R88). -/

namespace Sys2Proof.Machine

open Sys2Proof

/-- SL_SELECT (R81): chip-select low, SR and BITCNT cleared. -/
def slSelect (s : State) : Result :=
  andThen (lineWrite .cs false s) fun t => .next { t with sr := 0, bitcnt := 0, slph := .rise }

/-- SL_RISE (R82): clock high. -/
def slRise (s : State) : Result :=
  andThen (lineWrite .clk true s) fun t => .next { t with slph := .holdHi }

/-- SL_HOLD_HI (R83): hold with the clock high. -/
def slHoldHi (s : State) : Result := .next { hold s.params.tHalfMin s with slph := .sample }

/-- SL_SAMPLE (R84): sample DATA into SR and count the bit. -/
def slSample (s : State) : Result :=
  lineRead s fun b t => .next { t with sr := shiftIn t.sr b, bitcnt := t.bitcnt + 1, slph := .fall }

/-- SL_FALL (R85): clock low. -/
def slFall (s : State) : Result :=
  andThen (lineWrite .clk false s) fun t => .next { t with slph := .holdLo }

/-- SL_HOLD_LO (R86): hold with the clock low, then the next bit or, after sixteen, the end of the frame. -/
def slHoldLo (s : State) : Result :=
  .next { hold s.params.tHalfMin s with slph := if frameComplete s then .deselect else .rise }

/-- SL_DESELECT (R87): chip-select high, RESULT written. -/
def slDeselect (s : State) : Result :=
  andThen (lineWrite .cs true s) fun t => .next { t with result := readingOf t.sr, slph := .idle }

/-- The micro-step SLPH selects (R18, R103). -/
def slMicroStep (s : State) : Result :=
  match s.slph with
  | .idle => .refused .serialEngineIdle
  | .select => slSelect s
  | .rise => slRise s
  | .holdHi => slHoldHi s
  | .sample => slSample s
  | .fall => slFall s
  | .holdLo => slHoldLo s
  | .deselect => slDeselect s

/-- `n` micro-steps in a row. -/
def slMicroSteps : Nat → State → Result
  | 0, s => .next s
  | n + 1, s => andThen (slMicroStep s) (slMicroSteps n)

/-- The micro-steps of one SAMPLE: SL_SELECT, five for each of the 16 bits, SL_DESELECT (R80). -/
def sampleMicroSteps : Nat := 1 + Config.frameBits * 5 + 1

/-- Whether a SAMPLE is at its start: WD_ARM has set SLPH to SL_SELECT and the watchdog is in WD_SAMPLE
(R91, R102; log 14). -/
def sampleStarted (s : State) : Bool := (s.wdph == .sample) && (s.slph == .select)

/-- SAMPLE (R80) as the one function of R88: all its micro-steps, the sensor presenting `frame`, bit 15 first.
It runs only where the watchdog has just started it (R91, R219). -/
def execSample (frame : Frame) (s : State) : Result :=
  whenLoaded s fun s =>
    if sampleStarted s then
      slMicroSteps sampleMicroSteps (noResponse { s with sensor := frameLevels frame ++ s.sensor })
    else .refused .sampleNotStarted

end Sys2Proof.Machine
end

