-- ==== Sys2Proof/Machine/Watchdog.lean ====
section
/-! DEFINITION. ThermalWatchdog, the period timer and hard-limit comparator (R100 to R112). -/

namespace Sys2Proof.Machine

open Sys2Proof

/-- WD_TOP (R101): test the stop inputs. -/
def wdTop (s : State) : Result := .next { s with wdph := if stopRequested s then .term else .arm }

/-- WD_ARM (R102): compute the deadline and start a sample. -/
def wdArm (s : State) : Result :=
  .next { s with deadline := s.now + s.params.period, slph := .select, wdph := .sample }

/-- WD_SAMPLE (R103): one micro-step of the serial engine, or leave when it is idle. The stop inputs are not
looked at (R108). -/
def wdSample (s : State) : Result :=
  if s.slph = .idle then .next { s with wdph := .publish } else slMicroStep s

/-- WD_PUBLISH (R104), one atomic transition: publish the reading, compare, force the heater off on a breach. -/
def wdPublish (s : State) : Result :=
  let published := updateTemperature s.result s
  if breach published s.result then
    andThen (forceOff published) fun t => .next { emit .overTemp t with wdph := .idle }
  else .next { published with wdph := .idle }

/-- WD_IDLE (R105): one visit of the idle-wait. The stop inputs come before the deadline (R180). -/
def wdIdle (s : State) : Result :=
  if stopRequested s then .next { s with wdph := .term }
  else if deadlinePassed s then .next { s with wdph := .top }
  else .next (hold s.params.tYield s)

/-- The step WDPH selects (R22, R100). In WD_TERM and WD_OFF there is none (R106). -/
def watchdogStep (s : State) : Result :=
  match s.wdph with
  | .off => .refused .watchdogHasNoStep
  | .top => wdTop s
  | .arm => wdArm s
  | .sample => wdSample s
  | .publish => wdPublish s
  | .idle => wdIdle s
  | .term => .refused .watchdogHasNoStep

/-- WD_CYCLE (R100): one step of the watchdog agent (log 15). It answers nobody. -/
def execWdCycle (s : State) : Result :=
  whenLoaded s fun s => watchdogStep (noResponse s)

end Sys2Proof.Machine
end

