-- ==== Sys2Proof/Machine/Dispatch.lean ====
section
/-! DEFINITION. The meaning of every instruction, one direct call per constructor. -/

namespace Sys2Proof.Machine

open Sys2Proof

-- One instruction is one atomic transition (R47, R51).
def exec (i : Instr) (s : State) : Host.Outcome State Fault Refusal :=
  match i with
  | .badchan op chan byte => Sys2Proof.Machine.execBadchan op chan byte s
  | .openTemp byte => Sys2Proof.Machine.execOpenTemp byte s
  | .openStatus byte => Sys2Proof.Machine.execOpenStatus byte s
  | .readTemp byte => Sys2Proof.Machine.execReadTemp byte s
  | .readStatus byte => Sys2Proof.Machine.execReadStatus byte s
  | .writeTemp byte => Sys2Proof.Machine.execWriteTemp byte s
  | .writeStatusOn => Sys2Proof.Machine.execWriteStatusOn s
  | .writeStatusOff byte => Sys2Proof.Machine.execWriteStatusOff byte s
  | .releaseTemp byte => Sys2Proof.Machine.execReleaseTemp byte s
  | .releaseStatus byte => Sys2Proof.Machine.execReleaseStatus byte s
  | .requestOn ticks => Sys2Proof.Machine.execRequestOn ticks s
  | .requestOff ticks => Sys2Proof.Machine.execRequestOff ticks s
  | .forceOff ticks => Sys2Proof.Machine.execForceOff ticks s
  | .updateTemperature ticks => Sys2Proof.Machine.execUpdateTemperature ticks s
  | .sample frame => Sys2Proof.Machine.execSample frame s
  | .wdCycle => Sys2Proof.Machine.execWdCycle s
  | .init => Sys2Proof.Machine.execInit s
  | .stop => Sys2Proof.Machine.execStop s
  | .kill => Sys2Proof.Machine.execKill s
  | .shutdown => Sys2Proof.Machine.execShutdown s

end Sys2Proof.Machine
end

