-- ==== Sys2Proof/Machine/Turns.lean ====
section
/-! DEFINITION. How the next turn is taken from State, what the agents do of their own accord, and how a word of the
opcode table is placed. -/

namespace Sys2Proof.Machine

open Sys2Proof

/-- The state in which a presented word is performed: its turn is taken out of the inbox and its side inputs are
the ones the command sees. -/
def State.takeTurn (s : State) (side : SideInputs) (rest : List Turn) : State :=
  { s with side := side, inbox := rest }

/-- The step of the environment when no agent has an enabled step: some time passes (R5, R24; log 20). -/
def idleStep (s : State) : State := environmentStep (Config.anyDelay s.fresh) { s with fresh := s.fresh + 1 }

/-- The step that is taken where no turn is listed: the watchdog's, which runs by itself for the lifetime of the
module (R188), else step 2 of a SHUTDOWN that waits for the join (R204; log 13), else the environment's. -/
def ownStep (s : State) : Result :=
  if watchdogEnabled s then exec .wdCycle s
  else if shutdownJoined s then exec .shutdown s
  else .next (idleStep s)

/-- The step of the first listed turn that has one. A word that does not decode and a command that has no step
(R206, U8) are no turn of any agent: they are passed over and hold up nobody (R112; log 20). -/
def turnStep : List Turn → State → Result
  | [], s => ownStep s
  | .wait dt :: rest, s => .next (environmentStep dt { s with inbox := rest })
  | .present word side :: rest, s =>
    match decode word with
    | .rejected _ => turnStep rest { s with inbox := rest }
    | .instr i =>
      match exec i (s.takeTurn side rest) with
      | .next t => .next t
      | .fault r => .fault r
      | .refused _ => turnStep rest { s with inbox := rest }

/-- Place a word as the very next turn, with what must hold for it to have a step (log 2): a frame is selected by the
phases WD_ARM leaves (R75, R102), and INIT starts from an unloaded block (R33, R201). -/
def placeWord (s : State) (p : PortWord) : State :=
  let t := { s with inbox := .present p .quiet :: s.inbox }
  if p.format = .frame then { t with wdph := .sample, slph := .select }
  else if p = lifeWord 0 then { t with loaded := false, own := .all false, wdph := .off }
  else t

end Sys2Proof.Machine
end

