-- ==== Sys2Proof/Machine/Step.lean ====
section
/-! DEFINITION. One step of the machine: the first listed turn that has a step, or, where none is listed, what the
agents do by themselves (log 1). -/

namespace Sys2Proof.Machine

open Sys2Proof

/-- One atomic transition of one agent (R47, R51). -/
def step (s : State) : Host.Outcome State Fault Refusal := turnStep s.inbox s

/-- `s` with the instruction of a bare opcode-table number as its very next turn (log 2). -/
def State.withFetchWord (s : State) (nbits w : Nat) : State := placeWord s (tableWord nbits w)

end Sys2Proof.Machine
end

