-- ==== Sys2Proof/Safety.lean ====
section
/-! DEFINITION. What the rules promise of every state of the block, and which agent causes what, in the terms
claims use. -/

namespace Sys2Proof.Machine

open Sys2Proof

/-- `n` steps of the machine in a row; a fault or a refusal stops it. -/
def run : Nat → State → Result
  | 0, s => .next s
  | n + 1, s => andThen (step s) (run n)

/-- After every transition of a loaded block the HEAT line is high exactly when the heater is On (R21). -/
def State.lineFollowsHeater (s : State) : Bool := s.heat == s.heating

/-- HEATING = 1 implies TEMP <= HARD_LIMIT (R36). -/
def State.onBelowHardLimit (s : State) : Bool := !s.heating || decide (s.temp.toNat ≤ s.params.hardLimit)

/-- The levels of CS and CLK and the range of BITCNT in each phase of the serial engine (R81 to R86, R89). -/
def State.serialConsistent (s : State) : Bool :=
  match s.slph with
  | .idle => s.cs && !s.clk
  | .select => s.cs && !s.clk
  | .rise => !s.cs && !s.clk && decide (s.bitcnt.toNat < 16)
  | .holdHi => !s.cs && s.clk && decide (s.bitcnt.toNat < 16)
  | .sample => !s.cs && s.clk && decide (s.bitcnt.toNat < 16)
  | .fall => !s.cs && s.clk && decide (1 ≤ s.bitcnt.toNat) && decide (s.bitcnt.toNat ≤ 16)
  | .holdLo => !s.cs && !s.clk && decide (1 ≤ s.bitcnt.toNat) && decide (s.bitcnt.toNat ≤ 16)
  | .deselect => !s.cs && !s.clk && decide (s.bitcnt.toNat = 16)

/-- The watchdog of a loaded block exists, and the serial engine runs only in WD_SAMPLE (R22, R91, R102). -/
def State.phasesConsistent (s : State) : Bool :=
  (s.wdph != .off) && ((s.wdph == .sample) || (s.slph == .idle))

/-- A SHUTDOWN that waits for the join has set STOPFLAG (R204). -/
def State.requestStands (s : State) : Bool := !s.shutdownRequested || s.stopflag

/-- What holds of a loaded block: it owns its lines (R28), and R21, R36, R89, R91 and R204. -/
def State.loadedConsistent (s : State) : Bool :=
  (s.own == .all true) && s.lineFollowsHeater && s.onBelowHardLimit && s.serialConsistent && s.phasesConsistent &&
  s.requestStands

/-- What holds of an unloaded block: no line is owned, the watchdog does not exist (R33) and no SHUTDOWN waits. -/
def State.unloadedConsistent (s : State) : Bool :=
  (s.own == .all false) && (s.wdph == .off) && !s.shutdownRequested

/-- A turn that may come from outside: interlock requests never cross the block's boundary (R71, R130). -/
def Turn.crossesBoundary : Turn → Bool
  | .present word _ => word.format != .ireq
  | .wait _ => true

/-- The safe states: legal parameters (R207), the lifecycle conditions of R200, and an inbox that holds only
what may come from outside. -/
def State.safe (s : State) : Bool :=
  s.params.ok && (if s.loaded then s.loadedConsistent else s.unloadedConsistent) &&
  s.inbox.all Turn.crossesBoundary

/-- The agents that take instructions (R5, R185). Interlock requests are raised inside the block (R71). -/
inductive Agent where
  | watchdog | controlPath | lifecycle | internal
deriving DecidableEq, Repr

/-- The agent an instruction belongs to: the format of its word tells (R75, R185). -/
def agentOf (i : Instr) : Agent :=
  match (encode i).format with
  | .cmd => .controlPath
  | .ireq => .internal
  | .frame => .watchdog
  | .life => .lifecycle
  | .sequencer => .watchdog

end Sys2Proof.Machine
end

