-- ==== Sys2Proof/Certificates/Slice0/Obligations.lean ====
section
/-! DEFINITION. The statements for the provers. A state update written after `.next` says the whole next state, and so
the frame too: every field it does not name is unchanged. The block has no memory (R40, R45), so no statement
speaks of one. -/

open Sys2Proof Sys2Proof.Machine

/-! ## Encoding -/

/-- Decoding the encoding of a well-formed operation gives it back, for every operand (R60 to R75). -/
def Obligations.DecodeOfEncodeIsIdentity : Prop :=
  ∀ i : Instr, i.wellFormed = true → decode (encode i) = .instr i

/-- What the decoder reads from a word is well formed, and its encoding is that word: no bit of an encoding is
dropped. -/
def Obligations.EncodeOfDecodeIsIdentity : Prop :=
  ∀ (p : PortWord) (i : Instr), decode p = .instr i → i.wellFormed = true ∧ encode i = p

/-- The decoder is total on every word of its format and reads what the first row of the opcode table that takes
the word says (R64, R73, R75). -/
def Obligations.DecoderFollowsOpcodeTable : Prop :=
  ∀ p : PortWord, p.bits < 2 ^ p.format.width →
    ∃ r i, tableRow p = some r ∧ decode p = .instr i ∧ i.mnemonic = r.mnemonic

/-- The words and frames R76 works out. -/
def Obligations.WorkedEncodingsAreRead : Prop :=
  decode ⟨.cmd, 0x400⟩ = .instr (.readTemp 0) ∧ decode ⟨.cmd, 0x500⟩ = .instr (.readStatus 0) ∧
  decode ⟨.cmd, 0x931⟩ = .instr .writeStatusOn ∧ decode ⟨.cmd, 0x930⟩ = .instr (.writeStatusOff 0x30) ∧
  decode ⟨.cmd, 0x900⟩ = .instr (.writeStatusOff 0x00) ∧ decode ⟨.cmd, 0xD00⟩ = .instr (.releaseStatus 0) ∧
  decode ⟨.cmd, 0x000⟩ = .instr (.openTemp 0) ∧ decode ⟨.cmd, 0x600⟩ = .instr (.badchan 1 2 0) ∧
  decode ⟨.ireq, 0x3A8C⟩ = .instr (.updateTemperature 2700) ∧ decode ⟨.life, 0b10⟩ = .instr .kill ∧
  decode ⟨.sequencer, 0⟩ = .instr .wdCycle ∧ decode ⟨.frame, 0x3E80⟩ = .instr (.sample 0x3E80) ∧
  readingOf 0x3E80 = 2000 ∧ readingOf 0xBE87 = 2000 ∧
  temperatureString 2000 = [0x32, 0x30, 0x30, 0x30, 0x0A]

/-- The reading of a frame is its bits 14 to 3, whatever bits 15 and 2 to 0 are; every reading has frames
(R61, R62). -/
def Obligations.ReadingIsFrameBits14To3 : Prop :=
  ∀ frame : Frame, readingOf frame = frame.extractLsb' 3 12 ∧
    (readingOf frame).toNat = frame.toNat / 8 % 4096 ∧
    ∀ (f15 : BitVec 1) (t : Ticks) (low3 : BitVec 3),
      readingOf (BitVec.ofNat 16 (f15.toNat * 2 ^ 15 + t.toNat * 2 ^ 3 + low3.toNat)) = t

/-- A status write decodes by its byte alone: 0x31 is WRITE.STATUS.ON, each other byte WRITE.STATUS.OFF; the byte is
the first a client wrote, 0x00 for an empty write (R65, R66). -/
def Obligations.StatusWriteDecodesByFirstByte : Prop :=
  ∀ (byte : Byte) (rest : List Byte),
    (byte = 0x31 → decode (writeWord Config.chStatus (byte :: rest)) = .instr .writeStatusOn) ∧
    (byte ≠ 0x31 → decode (writeWord Config.chStatus (byte :: rest)) = .instr (.writeStatusOff byte)) ∧
    decode (writeWord Config.chStatus []) = .instr (.writeStatusOff 0x00)

/-- `dec(n)`: one digit below ten, else the digits of `n div 10` and the digit of `n mod 10` (R68). -/
def Obligations.DecimalDigitsFollowTheRule : Prop :=
  ∀ n : Nat, dec n = if n < 10 then [BitVec.ofNat 8 (0x30 + n)] else dec (n / 10) ++ dec (n % 10)

/-- The read string of the temperature channel ends in a newline and has 2, 3, 4 or 5 bytes by the size of TEMP
(R67). -/
def Obligations.TemperatureStringShape : Prop :=
  ∀ t : Ticks, temperatureString t = dec t.toNat ++ [0x0A] ∧
    (temperatureString t).length =
      (if t.toNat < 10 then 2 else if t.toNat < 100 then 3 else if t.toNat < 1000 then 4 else 5)

/-! ## Running -/

/-- The first listed turn: a word that decodes to an instruction with a step is performed, `step` being `exec` of it on
the state without that turn, its side inputs presented. A word that does not decode and an instruction that has no
step are passed over: `step` is then the step of the state without that turn (log 12, log 20). -/
def Obligations.StepRunsThePresentedInstruction : Prop :=
  ∀ (s : State) (word : PortWord) (side : SideInputs) (rest : List Turn),
    s.inbox = .present word side :: rest →
    (∀ i, decode word = .instr i → (∀ r, exec i { s with inbox := rest, side := side } ≠ .refused r) →
      step s = exec i { s with inbox := rest, side := side }) ∧
    (∀ i r, decode word = .instr i → exec i { s with inbox := rest, side := side } = .refused r →
      step s = step { s with inbox := rest }) ∧
    (∀ e, decode word = .rejected e → step s = step { s with inbox := rest })

/-- With no turn listed the watchdog takes its step where it has one, and a SHUTDOWN that waits takes its second step
once the watchdog has ended (R188, R204; model's choice, log 1 and log 13). -/
def Obligations.StepRunsTheWatchdogByItself : Prop :=
  ∀ s : State, s.inbox = [] → s.loaded = true →
    (s.wdph ≠ .off → s.wdph ≠ .term → step s = exec .wdCycle s) ∧
    (s.wdph = .term → s.shutdownRequested = true → step s = exec .shutdown s)

/-- The environment's steps. While time passes a loaded block keeps every register, in a listed wait and in the step
that is taken where no agent has one (R24, R83, R106; log 20). An unloaded block keeps LOADED, OWN_l and WDPH, and
of its other registers nothing is said (R33, R206; log 19). Time does not go back, and the outputs stay. -/
def Obligations.TimePassesWithoutChangingTheBlock : Prop :=
  ∀ s : State,
    (∀ (dt : Nat) (rest : List Turn), s.inbox = .wait dt :: rest → s.loaded = true →
      step s = .next { s with inbox := rest, now := s.now + dt }) ∧
    (s.inbox = [] → s.loaded = true → (s.wdph = .off ∨ (s.wdph = .term ∧ s.shutdownRequested = false)) →
      ∃ d n, step s = .next { s with now := s.now + d, fresh := n }) ∧
    (∀ (dt : Nat) (rest : List Turn), s.inbox = .wait dt :: rest → s.loaded = false → ∃ t, step s = .next t ∧
      t = { s with
        cs := t.cs, clk := t.clk, heat := t.heat, sr := t.sr, bitcnt := t.bitcnt, result := t.result, slph := t.slph,
        temp := t.temp, heating := t.heating, deadline := t.deadline, stopflag := t.stopflag, kill := t.kill,
        now := s.now + dt, inbox := rest, fresh := t.fresh }) ∧
    (s.inbox = [] → s.loaded = false → ∃ t, step s = .next t ∧ s.now ≤ t.now ∧
      t = { s with
        cs := t.cs, clk := t.clk, heat := t.heat, sr := t.sr, bitcnt := t.bitcnt, result := t.result, slph := t.slph,
        temp := t.temp, heating := t.heating, deadline := t.deadline, stopflag := t.stopflag, kill := t.kill,
        now := t.now, fresh := t.fresh })

/-! ## Host commands -/

/-- BADCHAN: every command word on selector 2 or 3 is answered FAULT_BADCHAN, whatever `xfer_fault` is, and nothing
else changes (R150, R172). -/
def Obligations.BadChannelFaultsWithoutStateChange : Prop :=
  ∀ (op chan : BitVec 2) (byte : Byte) (s : State), s.loaded = true → chan.getLsbD 1 = true →
    decode (cmdWord op chan byte) = .instr (.badchan op chan byte) ∧
    exec (.badchan op chan byte) s = .next { s with response := some ⟨.fault, .badChan, []⟩ }

/-- OPEN on either channel is a no-op answered OK, whatever its byte and `xfer_fault` are (R141, R142). -/
def Obligations.OpenIsANoOp : Prop :=
  ∀ (byte : Byte) (s : State), s.loaded = true →
    decode (cmdWord 0 0 byte) = .instr (.openTemp byte) ∧ decode (cmdWord 0 1 byte) = .instr (.openStatus byte) ∧
    exec (.openTemp byte) s = .next { s with response := some ⟨.ok, .none, []⟩ } ∧
    exec (.openStatus byte) s = .next { s with response := some ⟨.ok, .none, []⟩ }

/-- READ.TEMP: the decimal string of TEMP, or FAULT_XFER; no other change (R143). -/
def Obligations.ReadTempReturnsTheReading : Prop :=
  ∀ (byte : Byte) (s : State), s.loaded = true →
    decode (cmdWord 1 0 byte) = .instr (.readTemp byte) ∧
    exec (.readTemp byte) s = .next { s with
      response := some (if s.side.xferFault then ⟨.fault, .xfer, []⟩
        else ⟨.ok, .none, dec s.temp.toNat ++ [0x0A]⟩) }

/-- READ.STATUS: "1\n" for On, "0\n" for Off, or FAULT_XFER; no other change (R69, R144). -/
def Obligations.ReadStatusReturnsTheHeaterState : Prop :=
  ∀ (byte : Byte) (s : State), s.loaded = true →
    decode (cmdWord 1 1 byte) = .instr (.readStatus byte) ∧
    exec (.readStatus byte) s = .next { s with
      response := some (if s.side.xferFault then ⟨.fault, .xfer, []⟩
        else if s.heating then ⟨.ok, .none, [0x31, 0x0A]⟩ else ⟨.ok, .none, [0x30, 0x0A]⟩) }

/-- WRITE.TEMP: accepted with no effect, or FAULT_XFER (R145). -/
def Obligations.WriteTempHasNoEffect : Prop :=
  ∀ (byte : Byte) (s : State), s.loaded = true →
    decode (cmdWord 2 0 byte) = .instr (.writeTemp byte) ∧
    exec (.writeTemp byte) s = .next { s with
      response := some (if s.side.xferFault then ⟨.fault, .xfer, []⟩ else ⟨.ok, .none, []⟩) }

/-- WRITE.STATUS.ON: FAULT_XFER with no state change, or REQUEST_ON with its result as the status (R121, R146).
`events` is the write-only trace R190 lets a model keep (log 18). -/
def Obligations.WriteStatusOnRequestsOn : Prop :=
  ∀ s : State, s.loaded = true → s.own.heat = true →
    decode ⟨.cmd, 0x931⟩ = .instr .writeStatusOn ∧
    exec .writeStatusOn s = .next (
      if s.side.xferFault then { s with response := some ⟨.fault, .xfer, []⟩ }
      else if s.params.softLimit < s.temp.toNat then
        { s with heating := false, heat := false, events := s.events ++ [.refused],
                 response := some ⟨.refused, .none, []⟩ }
      else
        { s with heating := true, heat := true, events := s.events ++ [.turnedOn],
                 response := some ⟨.ok, .none, []⟩ })

/-- WRITE.STATUS.OFF: FAULT_XFER with no state change, or REQUEST_OFF (R122, R147). `events` is the write-only
trace R190 lets a model keep (log 18). -/
def Obligations.WriteStatusOffRequestsOff : Prop :=
  ∀ (byte : Byte) (s : State), byte ≠ 0x31 → s.loaded = true → s.own.heat = true →
    decode (cmdWord 2 1 byte) = .instr (.writeStatusOff byte) ∧
    exec (.writeStatusOff byte) s = .next (
      if s.side.xferFault then { s with response := some ⟨.fault, .xfer, []⟩ }
      else { s with heating := false, heat := false, events := s.events ++ [.turnedOff],
                    response := some ⟨.ok, .none, []⟩ })

/-- RELEASE.TEMP: no side effect, whatever `xfer_fault` is (R148). -/
def Obligations.ReleaseTempHasNoEffect : Prop :=
  ∀ (byte : Byte) (s : State), s.loaded = true →
    decode (cmdWord 3 0 byte) = .instr (.releaseTemp byte) ∧
    exec (.releaseTemp byte) s = .next { s with response := some ⟨.ok, .none, []⟩ }

/-- RELEASE.STATUS: the heater is forced Off, whatever its state and `xfer_fault` are (R149). `events` is the
write-only trace R190 lets a model keep (log 18). -/
def Obligations.ReleaseStatusForcesOff : Prop :=
  ∀ (byte : Byte) (s : State), s.loaded = true → s.own.heat = true →
    decode (cmdWord 3 1 byte) = .instr (.releaseStatus byte) ∧
    exec (.releaseStatus byte) s = .next { s with
      heating := false, heat := false, events := s.events ++ [.turnedOff], response := some ⟨.ok, .none, []⟩ }

/-! ## CoilInterlock -/

/-- REQUEST_ON: refused and Off above the soft limit, On otherwise, HEAT with HEATING (R121). Handing the result
back as the response is the model's choice (log 16). `events` is the write-only trace R190 lets a model keep (log
18). -/
def Obligations.RequestOnFollowsTheSoftLimit : Prop :=
  ∀ (ticks : Ticks) (s : State), s.loaded = true → s.own.heat = true →
    exec (.requestOn ticks) s = .next (
      if s.params.softLimit < s.temp.toNat then
        { s with heating := false, heat := false, events := s.events ++ [.refused],
                 response := some ⟨.refused, .none, []⟩ }
      else
        { s with heating := true, heat := true, events := s.events ++ [.turnedOn],
                 response := some ⟨.ok, .none, []⟩ })

/-- REQUEST_OFF and FORCE_OFF: Off whatever TEMP and the old state are; the one answers OK, the other nothing
(R122, R123; the response field is log 16's). `events` is the write-only trace R190 lets a model keep (log 18). -/
def Obligations.RequestOffAndForceOffTurnOff : Prop :=
  ∀ (ticks : Ticks) (s : State), s.loaded = true → s.own.heat = true →
    exec (.requestOff ticks) s = .next { s with
      heating := false, heat := false, events := s.events ++ [.turnedOff], response := some ⟨.ok, .none, []⟩ } ∧
    exec (.forceOff ticks) s = .next { s with
      heating := false, heat := false, events := s.events ++ [.turnedOff], response := none }

/-- UPDATE_TEMPERATURE: TEMP becomes the reading, any reading, and the heater is not looked at (R124). `response :=
none` after a step that answers nobody is the model's choice (log 17). -/
def Obligations.UpdateTemperatureStoresTheReading : Prop :=
  ∀ (ticks : Ticks) (s : State), s.loaded = true →
    exec (.updateTemperature ticks) s = .next { s with temp := ticks, response := none }

/-- Turning off again changes nothing but the trace of strobes (R128). `events` is the write-only trace R190 lets a
model keep (log 18). -/
def Obligations.TurningOffIsIdempotent : Prop :=
  ∀ (i : Instr) (s t : State),
    ((∃ b, i = .writeStatusOff b) ∨ (∃ b, i = .releaseStatus b) ∨ (∃ k, i = .requestOff k) ∨ (∃ k, i = .forceOff k)) →
    s.side.xferFault = false → exec i s = .next t →
    t.heating = false ∧ t.heat = false ∧ ∃ u, exec i t = .next u ∧ u = { t with events := u.events }

/-- A breach and a concurrent REQUEST_ON end Off in either order (R181). -/
def Obligations.BreachBeatsConcurrentRequestOn : Prop :=
  ∀ (i : Instr) (s : State), (i = .writeStatusOn ∨ ∃ k, i = .requestOn k) →
    s.params.ok = true → s.loaded = true → s.own.heat = true → s.side.xferFault = false →
    s.wdph = .publish → s.params.hardLimit < s.result.toNat →
    (∃ u t, exec i s = .next u ∧ exec .wdCycle u = .next t ∧
      t.heating = false ∧ t.heat = false ∧ t.temp = s.result) ∧
    (∃ u t, exec .wdCycle s = .next u ∧ exec i u = .next t ∧
      t.heating = false ∧ t.heat = false ∧ t.temp = s.result)

/-- The sole gate: an instruction that takes the heater from Off to On is an explicit request that passes the
soft-limit test (R125). -/
def Obligations.OnlyAnHonouredRequestTurnsOn : Prop :=
  ∀ (i : Instr) (s t : State), exec i s = .next t →
    (s.heating = false → t.heating = true →
      (i = .writeStatusOn ∨ ∃ k, i = .requestOn k) ∧ s.temp.toNat ≤ s.params.softLimit) ∧
    (s.heat = false → t.heat = true →
      (i = .writeStatusOn ∨ ∃ k, i = .requestOn k) ∧ s.temp.toNat ≤ s.params.softLimit)

/-- On a line the block does not own, each operation that writes or reads it is the model's fault (R222, U6; log 11):
the heat line, the publish step of a breach included, the three lines of the sensor in each micro-step, and SAMPLE
at the first line it meets (log 14). -/
def Obligations.UnownedLinesFault : Prop :=
  ∀ s : State, s.loaded = true →
    (s.own.heat = false → ∀ (b : Byte) (k : Ticks),
      exec (.requestOn k) s = .fault (.lineNotOwned .heat) ∧ exec (.requestOff k) s = .fault (.lineNotOwned .heat) ∧
      exec (.forceOff k) s = .fault (.lineNotOwned .heat) ∧ exec (.releaseStatus b) s = .fault (.lineNotOwned .heat) ∧
      (s.side.xferFault = false → exec .writeStatusOn s = .fault (.lineNotOwned .heat) ∧
        exec (.writeStatusOff b) s = .fault (.lineNotOwned .heat)) ∧
      (s.wdph = .publish → s.params.hardLimit < s.result.toNat → s.heating = true →
        exec .wdCycle s = .fault (.lineNotOwned .heat))) ∧
    (s.wdph = .sample →
      (s.own.cs = false → (s.slph = .select ∨ s.slph = .deselect) → exec .wdCycle s = .fault (.lineNotOwned .cs)) ∧
      (s.own.clk = false → (s.slph = .rise ∨ s.slph = .fall) → exec .wdCycle s = .fault (.lineNotOwned .clk)) ∧
      (s.own.data = false → s.slph = .sample → exec .wdCycle s = .fault (.lineNotOwned .data))) ∧
    (s.wdph = .sample → s.slph = .select → ∀ frame : Frame,
      (s.own.cs = false → exec (.sample frame) s = .fault (.lineNotOwned .cs)) ∧
      (s.own.cs = true → s.own.clk = false → exec (.sample frame) s = .fault (.lineNotOwned .clk)) ∧
      (s.own.cs = true → s.own.clk = true → s.own.data = false →
        exec (.sample frame) s = .fault (.lineNotOwned .data)))

/-! ## SensorLink -/

/-- The micro-steps that drive a line or hold (R81 to R83, R85 to R87): each writes what its rule says and nothing
else of the registers; a hold lasts at least T_HALF_MIN. `response := none` after a step that answers nobody is the
model's choice (log 17). -/
def Obligations.SerialMicroStepsFollowTheirRules : Prop :=
  ∀ s : State, s.loaded = true → s.wdph = .sample → s.own.cs = true → s.own.clk = true →
    (s.slph = .select → exec .wdCycle s =
      .next { s with cs := false, sr := 0, bitcnt := 0, slph := .rise, response := none }) ∧
    (s.slph = .rise → exec .wdCycle s = .next { s with clk := true, slph := .holdHi, response := none }) ∧
    (s.slph = .holdHi → ∃ d n, s.params.tHalfMin ≤ d ∧ exec .wdCycle s =
      .next { s with now := s.now + d, fresh := n, slph := .sample, response := none }) ∧
    (s.slph = .fall → exec .wdCycle s = .next { s with clk := false, slph := .holdLo, response := none }) ∧
    (s.slph = .holdLo → ∃ d n, s.params.tHalfMin ≤ d ∧ exec .wdCycle s =
      .next { s with now := s.now + d, fresh := n, response := none,
                     slph := if s.bitcnt = 16 then .deselect else .rise }) ∧
    (s.slph = .deselect → exec .wdCycle s =
      .next { s with cs := true, result := s.sr.extractLsb' 3 12, slph := .idle, response := none })

/-- SL_SAMPLE: the level of DATA, the next listed one or any level, is shifted into SR from the right and counted
(R14, R84). `response := none` after a step that answers nobody is the model's choice (log 17). -/
def Obligations.SerialSampleShiftsTheDataLevelIn : Prop :=
  ∀ s : State, s.loaded = true → s.wdph = .sample → s.slph = .sample → s.own.data = true →
    (∀ (b : Level) (rest : List Level), s.sensor = b :: rest → exec .wdCycle s = .next { s with
      sr := (s.sr <<< 1) ||| (if b then (1 : BitVec 16) else 0), bitcnt := s.bitcnt + 1, slph := .fall, sensor := rest,
      response := none }) ∧
    (s.sensor = [] → ∃ (b : Level) (n : Nat), exec .wdCycle s = .next { s with
      sr := (s.sr <<< 1) ||| (if b then (1 : BitVec 16) else 0), bitcnt := s.bitcnt + 1, slph := .fall, fresh := n,
      response := none })

/-- SAMPLE: for every frame, SR is the frame, RESULT its bits 14 to 3, the lines are idle again, at least 32
half-cycles have passed, and no other register is written; it never fails (R88, R90, R92). That it is one step is
log 14's choice, and `response := none` after a step that answers nobody is log 17's. -/
def Obligations.SampleReconstructsTheReading : Prop :=
  ∀ (frame : Frame) (s : State), s.loaded = true → s.wdph = .sample → s.slph = .select →
    s.own.cs = true → s.own.clk = true → s.own.data = true →
    ∃ d n, 32 * s.params.tHalfMin ≤ d ∧ exec (.sample frame) s = .next { s with
      cs := true, clk := false, sr := frame, bitcnt := 16, result := frame.extractLsb' 3 12, slph := .idle,
      now := s.now + d, fresh := n, response := none }

/-- SAMPLE as one function and the 82 micro-steps the watchdog takes by itself have the same outcome, for every frame
the sensor presents (R80, R88); that SAMPLE is one step is log 14's choice. -/
def Obligations.SampleIsEightyTwoWatchdogSteps : Prop :=
  ∀ (frame : Frame) (rest : List Level) (s : State), s.inbox = [] → s.loaded = true →
    s.wdph = .sample → s.slph = .select → s.sensor = frameLevels frame ++ rest →
    run 82 s = exec (.sample frame) { s with sensor := rest }

/-- A sample starts only where WD_ARM has just started one (R91, R219). The refusal is the model's form of a
command without a step (log 12). -/
def Obligations.SampleStartsOnlyFromTheWatchdog : Prop :=
  ∀ (frame : Frame) (s : State), s.loaded = true → (s.wdph ≠ .sample ∨ s.slph ≠ .select) →
    exec (.sample frame) s = .refused .sampleNotStarted

/-- Of the instructions only the watchdog's sample and INIT write the sensor's lines and the serial engine's registers;
WD_ARM, which starts the sample, writes SLPH alone of them (R50, R102, R219). -/
def Obligations.OnlySamplingTouchesTheSensorLines : Prop :=
  ∀ (i : Instr) (s t : State), exec i s = .next t → i ≠ .init → (i = .wdCycle → s.wdph ≠ .sample) →
    (∀ f, i ≠ .sample f) →
    t.cs = s.cs ∧ t.clk = s.clk ∧ t.sr = s.sr ∧ t.bitcnt = s.bitcnt ∧ t.result = s.result ∧ t.sensor = s.sensor ∧
    ((i = .wdCycle → s.wdph ≠ .arm) → t.slph = s.slph)

/-! ## ThermalWatchdog -/

/-- WD_TOP tests the stop inputs and writes WDPH only (R101). `response := none` after a step that answers nobody
is the model's choice (log 17). -/
def Obligations.WatchdogTopTestsTheStopInputs : Prop :=
  ∀ s : State, s.loaded = true → s.wdph = .top →
    exec .wdCycle s = .next { s with
      wdph := if s.stopflag = true ∨ s.kill = true then .term else .arm, response := none }

/-- WD_ARM computes the deadline one period ahead and starts a sample (R102); WD_SAMPLE leaves when the serial
engine is idle (R103). `response := none` after a step that answers nobody is the model's choice (log 17). -/
def Obligations.WatchdogArmsAndLeavesTheSample : Prop :=
  ∀ s : State, s.loaded = true →
    (s.wdph = .arm → exec .wdCycle s = .next { s with
      deadline := s.now + s.params.period, slph := .select, wdph := .sample, response := none }) ∧
    (s.wdph = .sample → s.slph = .idle → exec .wdCycle s = .next { s with wdph := .publish, response := none })

/-- WD_PUBLISH, one transition: TEMP becomes RESULT, and above the hard limit with the heater On the heater is Off
and both strobes are pulsed in order; otherwise the heater is untouched (R104, R111). `response := none` after a
step that answers nobody is the model's choice (log 17). `events` is the write-only trace R190 lets a model keep
(log 18). -/
def Obligations.WatchdogPublishesAndCutsTheHeater : Prop :=
  ∀ s : State, s.loaded = true → s.wdph = .publish →
    (s.params.hardLimit < s.result.toNat → s.heating = true → s.own.heat = true →
      exec .wdCycle s = .next { s with
        temp := s.result, heating := false, heat := false, wdph := .idle,
        events := s.events ++ [.turnedOff, .overTemp], response := none }) ∧
    (s.result.toNat ≤ s.params.hardLimit ∨ s.heating = false →
      exec .wdCycle s = .next { s with temp := s.result, wdph := .idle, response := none })

/-- WD_IDLE: the stop inputs first, then the deadline, else a yield of at least T_YIELD (R105). `response := none`
after a step that answers nobody is the model's choice (log 17). -/
def Obligations.WatchdogIdleWait : Prop :=
  ∀ s : State, s.loaded = true → s.wdph = .idle →
    (s.stopflag = true ∨ s.kill = true → exec .wdCycle s = .next { s with wdph := .term, response := none }) ∧
    (s.stopflag = false → s.kill = false → s.deadline ≤ s.now →
      exec .wdCycle s = .next { s with wdph := .top, response := none }) ∧
    (s.stopflag = false → s.kill = false → s.now < s.deadline → ∃ d n, s.params.tYield ≤ d ∧
      exec .wdCycle s = .next { s with now := s.now + d, fresh := n, response := none })

/-- The watchdog has an enabled step in every safe loaded state but WD_TERM, and none in WD_TERM or WD_OFF (R100,
R106). The refusal is the model's form of a command without a step (log 12). -/
def Obligations.WatchdogHasAStepUntilItEnds : Prop :=
  ∀ s : State, s.loaded = true →
    (s.safe = true → s.wdph ≠ .term → ∃ t, exec .wdCycle s = .next t) ∧
    (s.wdph = .term ∨ s.wdph = .off → exec .wdCycle s = .refused .watchdogHasNoStep)

/-- Weak fairness of the watchdog: where WDPH is neither WD_OFF nor WD_TERM, the watchdog eventually takes its step
(R112). The bound is the model's choice, not R112's: no more steps go by before it than turns are listed, because the
turns are a finite list (log 1) and those without a step are passed over (log 20). Until then nobody moves the
watchdog's phases. -/
def Obligations.WatchdogMovesWithinTheListedTurns : Prop :=
  ∀ s : State, s.safe = true → s.loaded = true → s.wdph ≠ .term →
    ∃ n u, n ≤ s.inbox.length ∧ run n s = .next u ∧ u.wdph = s.wdph ∧ u.slph = s.slph ∧
      ∃ i side rest t, agentOf i = .watchdog ∧ step u = exec i { u with side := side, inbox := rest } ∧
        step u = .next t

/-- One cycle of the watchdog, undisturbed: 86 steps from WD_TOP publish the reading of the frame the sensor presents,
with the deadline one period after the cycle's start, and a heater above the hard limit is Off (R100, R109). -/
def Obligations.OneCyclePublishesTheFrame : Prop :=
  ∀ (frame : Frame) (rest : List Level) (s : State), s.inbox = [] → s.loaded = true → s.own = .all true →
    s.wdph = .top → s.stopflag = false → s.kill = false → s.sensor = frameLevels frame ++ rest →
    ∃ t, run 86 s = .next t ∧ t.wdph = .idle ∧ t.slph = .idle ∧ t.temp = frame.extractLsb' 3 12 ∧
      t.deadline = s.now + s.params.period ∧ t.cs = true ∧ t.clk = false ∧ t.sensor = rest ∧
      t.heating = (s.heating && decide (t.temp.toNat ≤ s.params.hardLimit))

/-- A stop that is pending while a sample begins does not cut it: the frame is clocked in, published and compared, and
only the first visit of the idle-wait ends the watchdog (R108). -/
def Obligations.PendingStopLetsTheSampleFinish : Prop :=
  ∀ (frame : Frame) (rest : List Level) (s : State), s.inbox = [] → s.loaded = true → s.own = .all true →
    s.wdph = .sample → s.slph = .select → (s.stopflag = true ∨ s.kill = true) →
    s.sensor = frameLevels frame ++ rest →
    ∃ t, run 85 s = .next t ∧ t.wdph = .term ∧ t.temp = frame.extractLsb' 3 12 ∧
      t.cs = true ∧ t.clk = false ∧ t.stopflag = s.stopflag ∧ t.kill = s.kill ∧
      t.heating = (s.heating && decide (t.temp.toNat ≤ s.params.hardLimit))

/-- The idle-wait of an undisturbed watchdog ends: it is back at WD_TOP, past its deadline, after no more steps than
milliseconds were left and one (R105, R112). -/
def Obligations.IdleWaitReachesTheDeadline : Prop :=
  ∀ s : State, s.inbox = [] → s.loaded = true → s.wdph = .idle → s.stopflag = false → s.kill = false →
    0 < s.params.tYield →
    ∃ n t, n ≤ s.deadline - s.now + 1 ∧ run n s = .next t ∧ t.wdph = .top ∧ s.deadline ≤ t.now ∧
      t.temp = s.temp ∧ t.heating = s.heating

/-- TEMP is written by the publish step, by UPDATE_TEMPERATURE inside it, and by INIT, and by nothing else
(R19, R52). -/
def Obligations.OnlyThePublishStepWritesTemp : Prop :=
  ∀ (i : Instr) (s t : State), exec i s = .next t → t.temp ≠ s.temp →
    (i = .wdCycle ∧ s.wdph = .publish ∧ t.temp = s.result) ∨ i = .updateTemperature t.temp ∨
    (i = .init ∧ t.temp = s.params.tempReset)

/-! ## Lifecycle -/

/-- Reset is a successful INIT: the register values of R32. DEADLINE, which R32 leaves unspecified, is not
claimed. -/
def Obligations.ResetLeavesTheInitialValues : Prop :=
  State.reset.heating = false ∧ State.reset.heat = false ∧ State.reset.cs = true ∧ State.reset.clk = false ∧
  State.reset.temp = 0 ∧ State.reset.sr = 0 ∧ State.reset.bitcnt = 0 ∧ State.reset.result = 0 ∧
  State.reset.slph = .idle ∧ State.reset.wdph = .top ∧ State.reset.stopflag = false ∧ State.reset.kill = false ∧
  State.reset.loaded = true ∧ State.reset.own = .all true

/-- INIT with every line free, from any unloaded state: every register takes its reset value, DEADLINE any value
(R201, R208). -/
def Obligations.InitGivesTheResetState : Prop :=
  ∀ s : State, s.loaded = false → s.side.busy = .all false →
    ∃ d n, exec .init s = .next { s with
      own := .all true, cs := true, clk := false, heat := false, heating := false, temp := s.params.tempReset,
      sr := 0, bitcnt := 0, result := 0, slph := .idle, stopflag := false, kill := false, wdph := .top,
      loaded := true, shutdownRequested := false, deadline := d, fresh := n, response := some ⟨.ok, .none, []⟩ }

/-- INIT with a busy line: FAULT_NOLINE, every line given back, nothing else changed (R174, R205). INIT of a loaded
block has no step (R201). The refusal is the model's form of a command without a step (log 12). -/
def Obligations.FailedInitChangesNothing : Prop :=
  ∀ s : State,
    (s.loaded = false → s.own = .all false → s.side.busy ≠ .all false →
      exec .init s = .next { s with response := some ⟨.fault, .noLine, []⟩ }) ∧
    (s.loaded = true → exec .init s = .refused .alreadyLoaded)

/-- STOP sets STOPFLAG and KILL sets KILL, and nothing else (R202, R203). -/
def Obligations.StopAndKillSetTheirBits : Prop :=
  ∀ s : State, s.loaded = true →
    exec .stop s = .next { s with stopflag := true, response := some ⟨.ok, .none, []⟩ } ∧
    exec .kill s = .next { s with kill := true, response := some ⟨.ok, .none, []⟩ }

/-- SHUTDOWN: step 1 sets STOPFLAG; step 2, after it and once the watchdog has ended, releases the lines and unloads,
and leaves HEATING and HEAT as they were (R204, R215). STOPFLAG is not looked at (R34). That one presentation takes one
of the two steps is the model's choice (log 13), as is the empty response of the first (log 17). -/
def Obligations.ShutdownRequestsThenCompletes : Prop :=
  ∀ s : State, s.loaded = true →
    (s.wdph ≠ .term ∨ s.shutdownRequested = false →
      exec .shutdown s = .next { s with stopflag := true, shutdownRequested := true, response := none }) ∧
    (s.wdph = .term → s.shutdownRequested = true →
      exec .shutdown s = .next { s with
        own := .all false, wdph := .off, loaded := false, shutdownRequested := false,
        response := some ⟨.ok, .none, []⟩ })

/-- An unloaded block has no step for anything but INIT (R206). The refusal is the model's form of a command
without a step (log 12). -/
def Obligations.UnloadedBlockRefusesEverythingButInit : Prop :=
  ∀ (i : Instr) (s : State), s.loaded = false → i ≠ .init → exec i s = .refused .unloaded

/-- A stop input stays set until the next INIT (R25, R26). -/
def Obligations.StopInputsStaySetUntilInit : Prop :=
  ∀ (i : Instr) (s t : State), exec i s = .next t → i ≠ .init →
    (s.stopflag = true → t.stopflag = true) ∧ (s.kill = true → t.kill = true) ∧
    (t.kill = true → s.kill = true ∨ i = .kill) ∧
    (t.stopflag = true → s.stopflag = true ∨ i = .stop ∨ i = .shutdown)

/-- Lines are released only after the join: an instruction that changes the reservations of a loaded block is SHUTDOWN
with the watchdog in WD_TERM (R55, R222). -/
def Obligations.LinesAreReleasedOnlyAfterTheJoin : Prop :=
  ∀ (i : Instr) (s t : State), exec i s = .next t → s.loaded = true →
    (t.own ≠ s.own ∨ t.loaded = false) → i = .shutdown ∧ s.wdph = .term ∧ t.loaded = false ∧ t.own = .all false

/-! ## The whole machine -/

/-- The reset state is safe. -/
def Obligations.ResetIsSafe : Prop := State.reset.safe = true

/-- Every step keeps the safe states safe: the heater line follows the heater (R21), On implies a reading at or below
the hard limit (R36), a loaded block owns its lines (R28), the sensor lines have the levels of their phase (R89),
a sample runs only inside WD_SAMPLE (R91), a SHUTDOWN that waits has set STOPFLAG (R204), and an unloaded block is
unloaded (R33). -/
def Obligations.EveryStepKeepsTheBlockSafe : Prop :=
  ∀ s t : State, s.safe = true → step s = .next t → t.safe = true

/-- No step of a safe state touches a line the block does not own: the model's fault lineNotOwned (log 11) is never
reached (R222). UnownedLinesFault says that every such access would be that fault. -/
def Obligations.SafeStatesNeverFault : Prop :=
  ∀ (s : State) (f : Fault), s.safe = true → step s ≠ .fault f

/-- A fault response is precise: nothing but the response changes, and it carries a code and no data (R170). -/
def Obligations.FaultResponsesArePrecise : Prop :=
  ∀ (i : Instr) (s t : State) (c : FaultCode) (d : List Byte), s.safe = true → exec i s = .next t →
    t.response = some ⟨.fault, c, d⟩ → t = { s with response := some ⟨.fault, c, []⟩ } ∧ d = [] ∧ c ≠ .none

/-- Once the published reading is above the hard limit no READ of the status channel returns "1\n" (R104). -/
def Obligations.StatusReadsOffAboveTheHardLimit : Prop :=
  ∀ (byte : Byte) (s t : State), s.safe = true → s.loaded = true → s.side.xferFault = false →
    s.params.hardLimit < s.temp.toNat → exec (.readStatus byte) s = .next t →
    t.response = some ⟨.ok, .none, [0x30, 0x0A]⟩

/-- No step changes a parameter (R29). -/
def Obligations.ParametersNeverChange : Prop :=
  ∀ s t : State, step s = .next t → t.params = s.params

/-- Time never goes back (R24). -/
def Obligations.TimeNeverGoesBack : Prop :=
  ∀ s t : State, step s = .next t → s.now ≤ t.now

/-- Each role causes only what is its own: a client's command leaves TEMP, the sequencers, the stop inputs and the
lines alone; a lifecycle command other than INIT leaves the heater and the reading alone; the watchdog writes
neither stop input nor reservation and never turns the heater on (R185). `events` is the write-only trace R190 lets
a model keep (log 18). -/
def Obligations.RolesKeepToTheirRights : Prop :=
  ∀ (i : Instr) (s t : State), exec i s = .next t →
    (agentOf i = .controlPath → t.temp = s.temp ∧ t.result = s.result ∧ t.sr = s.sr ∧ t.bitcnt = s.bitcnt ∧
      t.slph = s.slph ∧ t.wdph = s.wdph ∧ t.deadline = s.deadline ∧ t.cs = s.cs ∧ t.clk = s.clk ∧
      t.stopflag = s.stopflag ∧ t.kill = s.kill ∧ t.loaded = s.loaded ∧ t.own = s.own ∧
      t.shutdownRequested = s.shutdownRequested) ∧
    (agentOf i = .lifecycle → i ≠ .init → t.temp = s.temp ∧ t.heating = s.heating ∧ t.heat = s.heat ∧
      t.result = s.result ∧ t.sr = s.sr ∧ t.slph = s.slph ∧ t.deadline = s.deadline ∧ t.events = s.events) ∧
    (agentOf i = .watchdog → t.stopflag = s.stopflag ∧ t.kill = s.kill ∧ t.own = s.own ∧ t.loaded = s.loaded ∧
      t.shutdownRequested = s.shutdownRequested ∧ (s.heating = false → t.heating = false))

/-- A strobe is pulsed only by the operation R190 gives it to: at most two in a step, and never by a read, an open,
a lifecycle command or a sample. `events` is the write-only trace R190 lets a model keep (log 18). -/
def Obligations.StrobesComeFromTheirOperations : Prop :=
  ∀ (i : Instr) (s t : State), exec i s = .next t →
    t.events = s.events ∨
    (t.events = s.events ++ [.turnedOn] ∧ t.heating = true ∧ (i = .writeStatusOn ∨ ∃ k, i = .requestOn k)) ∨
    (t.events = s.events ++ [.refused] ∧ t.heating = false ∧ (i = .writeStatusOn ∨ ∃ k, i = .requestOn k)) ∨
    (t.events = s.events ++ [.turnedOff] ∧ t.heating = false ∧
      ((∃ b, i = .writeStatusOff b) ∨ (∃ b, i = .releaseStatus b) ∨ (∃ k, i = .requestOff k) ∨ ∃ k, i = .forceOff k)) ∨
    (t.events = s.events ++ [.turnedOff, .overTemp] ∧ i = .wdCycle ∧ s.wdph = .publish ∧ s.heating = true ∧
      s.params.hardLimit < s.result.toNat)
end

