-- ==== Sys2Proof/Laws/PerInstr.lean ====
section
/-! SUPPORT. Laws stated once per constructor of Instr: the encoded word of every operation fits its format (R60). -/

namespace Sys2Proof.Laws.EncodeFits

open Sys2Proof

/-- The word of an operation has no more bits than its format (R60, R63, R71, R72). -/
def Statement (i : Instr) : Prop := (encode i).bits < 2 ^ (encode i).format.width

/-- A host command word has 12 bits. -/
theorem cmdWord_fits (op chan : BitVec 2) (byte : Byte) :
    (cmdWord op chan byte).bits < 2 ^ (cmdWord op chan byte).format.width := by
  have := op.isLt; have := chan.isLt; have := byte.isLt
  simp only [cmdWord, Format.width]; omega

/-- An interlock request has 14 bits. -/
theorem ireqWord_fits (code : BitVec 2) (ticks : Ticks) :
    (ireqWord code ticks).bits < 2 ^ (ireqWord code ticks).format.width := by
  have := code.isLt; have := ticks.isLt
  simp only [ireqWord, Format.width]; omega

/-- A lifecycle code has 2 bits. -/
theorem lifeWord_fits (code : BitVec 2) : (lifeWord code).bits < 2 ^ (lifeWord code).format.width := code.isLt

theorem badchan (op chan : BitVec 2) (byte : Byte) : Statement (.badchan op chan byte) := cmdWord_fits _ _ _
theorem openTemp (byte : Byte) : Statement (.openTemp byte) := cmdWord_fits _ _ _
theorem openStatus (byte : Byte) : Statement (.openStatus byte) := cmdWord_fits _ _ _
theorem readTemp (byte : Byte) : Statement (.readTemp byte) := cmdWord_fits _ _ _
theorem readStatus (byte : Byte) : Statement (.readStatus byte) := cmdWord_fits _ _ _
theorem writeTemp (byte : Byte) : Statement (.writeTemp byte) := cmdWord_fits _ _ _
theorem writeStatusOn : Statement .writeStatusOn := cmdWord_fits _ _ _
theorem writeStatusOff (byte : Byte) : Statement (.writeStatusOff byte) := cmdWord_fits _ _ _
theorem releaseTemp (byte : Byte) : Statement (.releaseTemp byte) := cmdWord_fits _ _ _
theorem releaseStatus (byte : Byte) : Statement (.releaseStatus byte) := cmdWord_fits _ _ _
theorem requestOn (ticks : Ticks) : Statement (.requestOn ticks) := ireqWord_fits _ _
theorem requestOff (ticks : Ticks) : Statement (.requestOff ticks) := ireqWord_fits _ _
theorem forceOff (ticks : Ticks) : Statement (.forceOff ticks) := ireqWord_fits _ _
theorem updateTemperature (ticks : Ticks) : Statement (.updateTemperature ticks) := ireqWord_fits _ _
theorem sample (frame : Frame) : Statement (.sample frame) := frame.isLt
theorem wdCycle : Statement .wdCycle := Nat.one_pos
theorem init : Statement .init := lifeWord_fits _
theorem stop : Statement .stop := lifeWord_fits _
theorem kill : Statement .kill := lifeWord_fits _
theorem shutdown : Statement .shutdown := lifeWord_fits _

end Sys2Proof.Laws.EncodeFits
end

