-- ==== Sys2Proof/Laws/Decode.lean ====
section
/-! SUPPORT. The fields of an encoded word are the fields it was built from (R63, R71). -/

namespace Sys2Proof

open Sys2Proof.Laws

/-- A slice of a number's bits, as arithmetic. -/
theorem toNat_slice_ofNat (w n start len : Nat) :
    ((BitVec.ofNat w n).extractLsb' start len).toNat = n % 2 ^ w / 2 ^ start % 2 ^ len := by
  simp [BitVec.extractLsb'_toNat, Nat.shiftRight_eq_div_pow]

theorem cmdWord_op (op chan : BitVec 2) (byte : Byte) :
    (BitVec.ofNat 12 (cmdWord op chan byte).bits).extractLsb' 10 2 = op := by
  apply BitVec.eq_of_toNat_eq
  rw [toNat_slice_ofNat]
  have := op.isLt; have := chan.isLt; have := byte.isLt
  simp only [cmdWord]; omega

theorem cmdWord_chan (op chan : BitVec 2) (byte : Byte) :
    (BitVec.ofNat 12 (cmdWord op chan byte).bits).extractLsb' 8 2 = chan := by
  apply BitVec.eq_of_toNat_eq
  rw [toNat_slice_ofNat]
  have := op.isLt; have := chan.isLt; have := byte.isLt
  simp only [cmdWord]; omega

theorem cmdWord_byte (op chan : BitVec 2) (byte : Byte) :
    (BitVec.ofNat 12 (cmdWord op chan byte).bits).extractLsb' 0 8 = byte := by
  apply BitVec.eq_of_toNat_eq
  rw [toNat_slice_ofNat]
  have := op.isLt; have := chan.isLt; have := byte.isLt
  simp only [cmdWord]; omega

theorem ireqWord_code (code : BitVec 2) (ticks : Ticks) :
    (BitVec.ofNat 14 (ireqWord code ticks).bits).extractLsb' 12 2 = code := by
  apply BitVec.eq_of_toNat_eq
  rw [toNat_slice_ofNat]
  have := code.isLt; have := ticks.isLt
  simp only [ireqWord]; omega

theorem ireqWord_ticks (code : BitVec 2) (ticks : Ticks) :
    (BitVec.ofNat 14 (ireqWord code ticks).bits).extractLsb' 0 12 = ticks := by
  apply BitVec.eq_of_toNat_eq
  rw [toNat_slice_ofNat]
  have := code.isLt; have := ticks.isLt
  simp only [ireqWord]; omega

/-- A host command word reaches the decoder of host commands, whatever its fields. -/
theorem decode_cmdWord (op chan : BitVec 2) (byte : Byte) :
    decode (cmdWord op chan byte) = .instr (decodeCmd (BitVec.ofNat 12 (cmdWord op chan byte).bits)) :=
  if_pos (EncodeFits.cmdWord_fits op chan byte)

/-- An interlock request reaches its decoder, whatever its fields. -/
theorem decode_ireqWord (code : BitVec 2) (ticks : Ticks) :
    decode (ireqWord code ticks) = .instr (decodeIreq (BitVec.ofNat 14 (ireqWord code ticks).bits)) :=
  if_pos (EncodeFits.ireqWord_fits code ticks)

end Sys2Proof
end

