-- ==== Sys2Proof/Laws/State.lean ====
section
/-! SUPPORT. The record laws of State: what each named update leaves in each field. -/

namespace Sys2Proof.Machine

open Sys2Proof

/-! `driveLatch` writes the latch of its line only. -/

@[simp] theorem State.driveLatch_csLine_cs (s : State) (b : Level) : (s.driveLatch .cs b).cs = b := rfl
@[simp] theorem State.driveLatch_csLine_clk (s : State) (b : Level) : (s.driveLatch .cs b).clk = s.clk := rfl
@[simp] theorem State.driveLatch_csLine_heat (s : State) (b : Level) : (s.driveLatch .cs b).heat = s.heat := rfl
@[simp] theorem State.driveLatch_csLine_sr (s : State) (b : Level) : (s.driveLatch .cs b).sr = s.sr := rfl
@[simp] theorem State.driveLatch_csLine_bitcnt (s : State) (b : Level) : (s.driveLatch .cs b).bitcnt = s.bitcnt := rfl
@[simp] theorem State.driveLatch_csLine_result (s : State) (b : Level) : (s.driveLatch .cs b).result = s.result := rfl
@[simp] theorem State.driveLatch_csLine_slph (s : State) (b : Level) : (s.driveLatch .cs b).slph = s.slph := rfl
@[simp] theorem State.driveLatch_csLine_temp (s : State) (b : Level) : (s.driveLatch .cs b).temp = s.temp := rfl
@[simp] theorem State.driveLatch_csLine_heating (s : State) (b : Level) : (s.driveLatch .cs b).heating = s.heating := rfl
@[simp] theorem State.driveLatch_csLine_wdph (s : State) (b : Level) : (s.driveLatch .cs b).wdph = s.wdph := rfl
@[simp] theorem State.driveLatch_csLine_deadline (s : State) (b : Level) : (s.driveLatch .cs b).deadline = s.deadline := rfl
@[simp] theorem State.driveLatch_csLine_stopflag (s : State) (b : Level) : (s.driveLatch .cs b).stopflag = s.stopflag := rfl
@[simp] theorem State.driveLatch_csLine_kill (s : State) (b : Level) : (s.driveLatch .cs b).kill = s.kill := rfl
@[simp] theorem State.driveLatch_csLine_loaded (s : State) (b : Level) : (s.driveLatch .cs b).loaded = s.loaded := rfl
@[simp] theorem State.driveLatch_csLine_own (s : State) (b : Level) : (s.driveLatch .cs b).own = s.own := rfl
@[simp] theorem State.driveLatch_csLine_params (s : State) (b : Level) : (s.driveLatch .cs b).params = s.params := rfl
@[simp] theorem State.driveLatch_csLine_now (s : State) (b : Level) : (s.driveLatch .cs b).now = s.now := rfl
@[simp] theorem State.driveLatch_csLine_sensor (s : State) (b : Level) : (s.driveLatch .cs b).sensor = s.sensor := rfl
@[simp] theorem State.driveLatch_csLine_side (s : State) (b : Level) : (s.driveLatch .cs b).side = s.side := rfl
@[simp] theorem State.driveLatch_csLine_inbox (s : State) (b : Level) : (s.driveLatch .cs b).inbox = s.inbox := rfl
@[simp] theorem State.driveLatch_csLine_shutdownRequested (s : State) (b : Level) : (s.driveLatch .cs b).shutdownRequested = s.shutdownRequested := rfl
@[simp] theorem State.driveLatch_csLine_fresh (s : State) (b : Level) : (s.driveLatch .cs b).fresh = s.fresh := rfl
@[simp] theorem State.driveLatch_csLine_response (s : State) (b : Level) : (s.driveLatch .cs b).response = s.response := rfl
@[simp] theorem State.driveLatch_csLine_events (s : State) (b : Level) : (s.driveLatch .cs b).events = s.events := rfl

@[simp] theorem State.driveLatch_clkLine_cs (s : State) (b : Level) : (s.driveLatch .clk b).cs = s.cs := rfl
@[simp] theorem State.driveLatch_clkLine_clk (s : State) (b : Level) : (s.driveLatch .clk b).clk = b := rfl
@[simp] theorem State.driveLatch_clkLine_heat (s : State) (b : Level) : (s.driveLatch .clk b).heat = s.heat := rfl
@[simp] theorem State.driveLatch_clkLine_sr (s : State) (b : Level) : (s.driveLatch .clk b).sr = s.sr := rfl
@[simp] theorem State.driveLatch_clkLine_bitcnt (s : State) (b : Level) : (s.driveLatch .clk b).bitcnt = s.bitcnt := rfl
@[simp] theorem State.driveLatch_clkLine_result (s : State) (b : Level) : (s.driveLatch .clk b).result = s.result := rfl
@[simp] theorem State.driveLatch_clkLine_slph (s : State) (b : Level) : (s.driveLatch .clk b).slph = s.slph := rfl
@[simp] theorem State.driveLatch_clkLine_temp (s : State) (b : Level) : (s.driveLatch .clk b).temp = s.temp := rfl
@[simp] theorem State.driveLatch_clkLine_heating (s : State) (b : Level) : (s.driveLatch .clk b).heating = s.heating := rfl
@[simp] theorem State.driveLatch_clkLine_wdph (s : State) (b : Level) : (s.driveLatch .clk b).wdph = s.wdph := rfl
@[simp] theorem State.driveLatch_clkLine_deadline (s : State) (b : Level) : (s.driveLatch .clk b).deadline = s.deadline := rfl
@[simp] theorem State.driveLatch_clkLine_stopflag (s : State) (b : Level) : (s.driveLatch .clk b).stopflag = s.stopflag := rfl
@[simp] theorem State.driveLatch_clkLine_kill (s : State) (b : Level) : (s.driveLatch .clk b).kill = s.kill := rfl
@[simp] theorem State.driveLatch_clkLine_loaded (s : State) (b : Level) : (s.driveLatch .clk b).loaded = s.loaded := rfl
@[simp] theorem State.driveLatch_clkLine_own (s : State) (b : Level) : (s.driveLatch .clk b).own = s.own := rfl
@[simp] theorem State.driveLatch_clkLine_params (s : State) (b : Level) : (s.driveLatch .clk b).params = s.params := rfl
@[simp] theorem State.driveLatch_clkLine_now (s : State) (b : Level) : (s.driveLatch .clk b).now = s.now := rfl
@[simp] theorem State.driveLatch_clkLine_sensor (s : State) (b : Level) : (s.driveLatch .clk b).sensor = s.sensor := rfl
@[simp] theorem State.driveLatch_clkLine_side (s : State) (b : Level) : (s.driveLatch .clk b).side = s.side := rfl
@[simp] theorem State.driveLatch_clkLine_inbox (s : State) (b : Level) : (s.driveLatch .clk b).inbox = s.inbox := rfl
@[simp] theorem State.driveLatch_clkLine_shutdownRequested (s : State) (b : Level) : (s.driveLatch .clk b).shutdownRequested = s.shutdownRequested := rfl
@[simp] theorem State.driveLatch_clkLine_fresh (s : State) (b : Level) : (s.driveLatch .clk b).fresh = s.fresh := rfl
@[simp] theorem State.driveLatch_clkLine_response (s : State) (b : Level) : (s.driveLatch .clk b).response = s.response := rfl
@[simp] theorem State.driveLatch_clkLine_events (s : State) (b : Level) : (s.driveLatch .clk b).events = s.events := rfl

@[simp] theorem State.driveLatch_heatLine_cs (s : State) (b : Level) : (s.driveLatch .heat b).cs = s.cs := rfl
@[simp] theorem State.driveLatch_heatLine_clk (s : State) (b : Level) : (s.driveLatch .heat b).clk = s.clk := rfl
@[simp] theorem State.driveLatch_heatLine_heat (s : State) (b : Level) : (s.driveLatch .heat b).heat = b := rfl
@[simp] theorem State.driveLatch_heatLine_sr (s : State) (b : Level) : (s.driveLatch .heat b).sr = s.sr := rfl
@[simp] theorem State.driveLatch_heatLine_bitcnt (s : State) (b : Level) : (s.driveLatch .heat b).bitcnt = s.bitcnt := rfl
@[simp] theorem State.driveLatch_heatLine_result (s : State) (b : Level) : (s.driveLatch .heat b).result = s.result := rfl
@[simp] theorem State.driveLatch_heatLine_slph (s : State) (b : Level) : (s.driveLatch .heat b).slph = s.slph := rfl
@[simp] theorem State.driveLatch_heatLine_temp (s : State) (b : Level) : (s.driveLatch .heat b).temp = s.temp := rfl
@[simp] theorem State.driveLatch_heatLine_heating (s : State) (b : Level) : (s.driveLatch .heat b).heating = s.heating := rfl
@[simp] theorem State.driveLatch_heatLine_wdph (s : State) (b : Level) : (s.driveLatch .heat b).wdph = s.wdph := rfl
@[simp] theorem State.driveLatch_heatLine_deadline (s : State) (b : Level) : (s.driveLatch .heat b).deadline = s.deadline := rfl
@[simp] theorem State.driveLatch_heatLine_stopflag (s : State) (b : Level) : (s.driveLatch .heat b).stopflag = s.stopflag := rfl
@[simp] theorem State.driveLatch_heatLine_kill (s : State) (b : Level) : (s.driveLatch .heat b).kill = s.kill := rfl
@[simp] theorem State.driveLatch_heatLine_loaded (s : State) (b : Level) : (s.driveLatch .heat b).loaded = s.loaded := rfl
@[simp] theorem State.driveLatch_heatLine_own (s : State) (b : Level) : (s.driveLatch .heat b).own = s.own := rfl
@[simp] theorem State.driveLatch_heatLine_params (s : State) (b : Level) : (s.driveLatch .heat b).params = s.params := rfl
@[simp] theorem State.driveLatch_heatLine_now (s : State) (b : Level) : (s.driveLatch .heat b).now = s.now := rfl
@[simp] theorem State.driveLatch_heatLine_sensor (s : State) (b : Level) : (s.driveLatch .heat b).sensor = s.sensor := rfl
@[simp] theorem State.driveLatch_heatLine_side (s : State) (b : Level) : (s.driveLatch .heat b).side = s.side := rfl
@[simp] theorem State.driveLatch_heatLine_inbox (s : State) (b : Level) : (s.driveLatch .heat b).inbox = s.inbox := rfl
@[simp] theorem State.driveLatch_heatLine_shutdownRequested (s : State) (b : Level) : (s.driveLatch .heat b).shutdownRequested = s.shutdownRequested := rfl
@[simp] theorem State.driveLatch_heatLine_fresh (s : State) (b : Level) : (s.driveLatch .heat b).fresh = s.fresh := rfl
@[simp] theorem State.driveLatch_heatLine_response (s : State) (b : Level) : (s.driveLatch .heat b).response = s.response := rfl
@[simp] theorem State.driveLatch_heatLine_events (s : State) (b : Level) : (s.driveLatch .heat b).events = s.events := rfl

/-! `setOwn` writes the reservation of its line only. -/

@[simp] theorem State.setOwn_cs (s : State) (l : Line) (b : Bool) : (s.setOwn l b).cs = s.cs := rfl
@[simp] theorem State.setOwn_clk (s : State) (l : Line) (b : Bool) : (s.setOwn l b).clk = s.clk := rfl
@[simp] theorem State.setOwn_heat (s : State) (l : Line) (b : Bool) : (s.setOwn l b).heat = s.heat := rfl
@[simp] theorem State.setOwn_sr (s : State) (l : Line) (b : Bool) : (s.setOwn l b).sr = s.sr := rfl
@[simp] theorem State.setOwn_bitcnt (s : State) (l : Line) (b : Bool) : (s.setOwn l b).bitcnt = s.bitcnt := rfl
@[simp] theorem State.setOwn_result (s : State) (l : Line) (b : Bool) : (s.setOwn l b).result = s.result := rfl
@[simp] theorem State.setOwn_slph (s : State) (l : Line) (b : Bool) : (s.setOwn l b).slph = s.slph := rfl
@[simp] theorem State.setOwn_temp (s : State) (l : Line) (b : Bool) : (s.setOwn l b).temp = s.temp := rfl
@[simp] theorem State.setOwn_heating (s : State) (l : Line) (b : Bool) : (s.setOwn l b).heating = s.heating := rfl
@[simp] theorem State.setOwn_wdph (s : State) (l : Line) (b : Bool) : (s.setOwn l b).wdph = s.wdph := rfl
@[simp] theorem State.setOwn_deadline (s : State) (l : Line) (b : Bool) : (s.setOwn l b).deadline = s.deadline := rfl
@[simp] theorem State.setOwn_stopflag (s : State) (l : Line) (b : Bool) : (s.setOwn l b).stopflag = s.stopflag := rfl
@[simp] theorem State.setOwn_kill (s : State) (l : Line) (b : Bool) : (s.setOwn l b).kill = s.kill := rfl
@[simp] theorem State.setOwn_loaded (s : State) (l : Line) (b : Bool) : (s.setOwn l b).loaded = s.loaded := rfl
@[simp] theorem State.setOwn_own (s : State) (l : Line) (b : Bool) : (s.setOwn l b).own = s.own.set l b := rfl
@[simp] theorem State.setOwn_params (s : State) (l : Line) (b : Bool) : (s.setOwn l b).params = s.params := rfl
@[simp] theorem State.setOwn_now (s : State) (l : Line) (b : Bool) : (s.setOwn l b).now = s.now := rfl
@[simp] theorem State.setOwn_sensor (s : State) (l : Line) (b : Bool) : (s.setOwn l b).sensor = s.sensor := rfl
@[simp] theorem State.setOwn_side (s : State) (l : Line) (b : Bool) : (s.setOwn l b).side = s.side := rfl
@[simp] theorem State.setOwn_inbox (s : State) (l : Line) (b : Bool) : (s.setOwn l b).inbox = s.inbox := rfl
@[simp] theorem State.setOwn_shutdownRequested (s : State) (l : Line) (b : Bool) : (s.setOwn l b).shutdownRequested = s.shutdownRequested := rfl
@[simp] theorem State.setOwn_fresh (s : State) (l : Line) (b : Bool) : (s.setOwn l b).fresh = s.fresh := rfl
@[simp] theorem State.setOwn_response (s : State) (l : Line) (b : Bool) : (s.setOwn l b).response = s.response := rfl
@[simp] theorem State.setOwn_events (s : State) (l : Line) (b : Bool) : (s.setOwn l b).events = s.events := rfl

/-! `hold` lets time pass and uses one free value. -/

@[simp] theorem hold_cs (s : State) (lo : Nat) : (hold lo s).cs = s.cs := rfl
@[simp] theorem hold_clk (s : State) (lo : Nat) : (hold lo s).clk = s.clk := rfl
@[simp] theorem hold_heat (s : State) (lo : Nat) : (hold lo s).heat = s.heat := rfl
@[simp] theorem hold_sr (s : State) (lo : Nat) : (hold lo s).sr = s.sr := rfl
@[simp] theorem hold_bitcnt (s : State) (lo : Nat) : (hold lo s).bitcnt = s.bitcnt := rfl
@[simp] theorem hold_result (s : State) (lo : Nat) : (hold lo s).result = s.result := rfl
@[simp] theorem hold_slph (s : State) (lo : Nat) : (hold lo s).slph = s.slph := rfl
@[simp] theorem hold_temp (s : State) (lo : Nat) : (hold lo s).temp = s.temp := rfl
@[simp] theorem hold_heating (s : State) (lo : Nat) : (hold lo s).heating = s.heating := rfl
@[simp] theorem hold_wdph (s : State) (lo : Nat) : (hold lo s).wdph = s.wdph := rfl
@[simp] theorem hold_deadline (s : State) (lo : Nat) : (hold lo s).deadline = s.deadline := rfl
@[simp] theorem hold_stopflag (s : State) (lo : Nat) : (hold lo s).stopflag = s.stopflag := rfl
@[simp] theorem hold_kill (s : State) (lo : Nat) : (hold lo s).kill = s.kill := rfl
@[simp] theorem hold_loaded (s : State) (lo : Nat) : (hold lo s).loaded = s.loaded := rfl
@[simp] theorem hold_own (s : State) (lo : Nat) : (hold lo s).own = s.own := rfl
@[simp] theorem hold_params (s : State) (lo : Nat) : (hold lo s).params = s.params := rfl
@[simp] theorem hold_now (s : State) (lo : Nat) : (hold lo s).now = s.now + (lo + Config.anyExcess s.fresh) := rfl
@[simp] theorem hold_sensor (s : State) (lo : Nat) : (hold lo s).sensor = s.sensor := rfl
@[simp] theorem hold_side (s : State) (lo : Nat) : (hold lo s).side = s.side := rfl
@[simp] theorem hold_inbox (s : State) (lo : Nat) : (hold lo s).inbox = s.inbox := rfl
@[simp] theorem hold_shutdownRequested (s : State) (lo : Nat) : (hold lo s).shutdownRequested = s.shutdownRequested := rfl
@[simp] theorem hold_fresh (s : State) (lo : Nat) : (hold lo s).fresh = s.fresh + 1 := rfl
@[simp] theorem hold_response (s : State) (lo : Nat) : (hold lo s).response = s.response := rfl
@[simp] theorem hold_events (s : State) (lo : Nat) : (hold lo s).events = s.events := rfl

/-! `emit` appends one strobe to the trace. -/

@[simp] theorem emit_cs (s : State) (e : Event) : (emit e s).cs = s.cs := rfl
@[simp] theorem emit_clk (s : State) (e : Event) : (emit e s).clk = s.clk := rfl
@[simp] theorem emit_heat (s : State) (e : Event) : (emit e s).heat = s.heat := rfl
@[simp] theorem emit_sr (s : State) (e : Event) : (emit e s).sr = s.sr := rfl
@[simp] theorem emit_bitcnt (s : State) (e : Event) : (emit e s).bitcnt = s.bitcnt := rfl
@[simp] theorem emit_result (s : State) (e : Event) : (emit e s).result = s.result := rfl
@[simp] theorem emit_slph (s : State) (e : Event) : (emit e s).slph = s.slph := rfl
@[simp] theorem emit_temp (s : State) (e : Event) : (emit e s).temp = s.temp := rfl
@[simp] theorem emit_heating (s : State) (e : Event) : (emit e s).heating = s.heating := rfl
@[simp] theorem emit_wdph (s : State) (e : Event) : (emit e s).wdph = s.wdph := rfl
@[simp] theorem emit_deadline (s : State) (e : Event) : (emit e s).deadline = s.deadline := rfl
@[simp] theorem emit_stopflag (s : State) (e : Event) : (emit e s).stopflag = s.stopflag := rfl
@[simp] theorem emit_kill (s : State) (e : Event) : (emit e s).kill = s.kill := rfl
@[simp] theorem emit_loaded (s : State) (e : Event) : (emit e s).loaded = s.loaded := rfl
@[simp] theorem emit_own (s : State) (e : Event) : (emit e s).own = s.own := rfl
@[simp] theorem emit_params (s : State) (e : Event) : (emit e s).params = s.params := rfl
@[simp] theorem emit_now (s : State) (e : Event) : (emit e s).now = s.now := rfl
@[simp] theorem emit_sensor (s : State) (e : Event) : (emit e s).sensor = s.sensor := rfl
@[simp] theorem emit_side (s : State) (e : Event) : (emit e s).side = s.side := rfl
@[simp] theorem emit_inbox (s : State) (e : Event) : (emit e s).inbox = s.inbox := rfl
@[simp] theorem emit_shutdownRequested (s : State) (e : Event) : (emit e s).shutdownRequested = s.shutdownRequested := rfl
@[simp] theorem emit_fresh (s : State) (e : Event) : (emit e s).fresh = s.fresh := rfl
@[simp] theorem emit_response (s : State) (e : Event) : (emit e s).response = s.response := rfl
@[simp] theorem emit_events (s : State) (e : Event) : (emit e s).events = s.events ++ [e] := rfl

/-! `respond` writes the response. -/

@[simp] theorem respond_cs (s : State) (r : Response) : (respond r s).cs = s.cs := rfl
@[simp] theorem respond_clk (s : State) (r : Response) : (respond r s).clk = s.clk := rfl
@[simp] theorem respond_heat (s : State) (r : Response) : (respond r s).heat = s.heat := rfl
@[simp] theorem respond_sr (s : State) (r : Response) : (respond r s).sr = s.sr := rfl
@[simp] theorem respond_bitcnt (s : State) (r : Response) : (respond r s).bitcnt = s.bitcnt := rfl
@[simp] theorem respond_result (s : State) (r : Response) : (respond r s).result = s.result := rfl
@[simp] theorem respond_slph (s : State) (r : Response) : (respond r s).slph = s.slph := rfl
@[simp] theorem respond_temp (s : State) (r : Response) : (respond r s).temp = s.temp := rfl
@[simp] theorem respond_heating (s : State) (r : Response) : (respond r s).heating = s.heating := rfl
@[simp] theorem respond_wdph (s : State) (r : Response) : (respond r s).wdph = s.wdph := rfl
@[simp] theorem respond_deadline (s : State) (r : Response) : (respond r s).deadline = s.deadline := rfl
@[simp] theorem respond_stopflag (s : State) (r : Response) : (respond r s).stopflag = s.stopflag := rfl
@[simp] theorem respond_kill (s : State) (r : Response) : (respond r s).kill = s.kill := rfl
@[simp] theorem respond_loaded (s : State) (r : Response) : (respond r s).loaded = s.loaded := rfl
@[simp] theorem respond_own (s : State) (r : Response) : (respond r s).own = s.own := rfl
@[simp] theorem respond_params (s : State) (r : Response) : (respond r s).params = s.params := rfl
@[simp] theorem respond_now (s : State) (r : Response) : (respond r s).now = s.now := rfl
@[simp] theorem respond_sensor (s : State) (r : Response) : (respond r s).sensor = s.sensor := rfl
@[simp] theorem respond_side (s : State) (r : Response) : (respond r s).side = s.side := rfl
@[simp] theorem respond_inbox (s : State) (r : Response) : (respond r s).inbox = s.inbox := rfl
@[simp] theorem respond_shutdownRequested (s : State) (r : Response) : (respond r s).shutdownRequested = s.shutdownRequested := rfl
@[simp] theorem respond_fresh (s : State) (r : Response) : (respond r s).fresh = s.fresh := rfl
@[simp] theorem respond_response (s : State) (r : Response) : (respond r s).response = some r := rfl
@[simp] theorem respond_events (s : State) (r : Response) : (respond r s).events = s.events := rfl

/-! `noResponse` clears the response. -/

@[simp] theorem noResponse_cs (s : State) : (noResponse s).cs = s.cs := rfl
@[simp] theorem noResponse_clk (s : State) : (noResponse s).clk = s.clk := rfl
@[simp] theorem noResponse_heat (s : State) : (noResponse s).heat = s.heat := rfl
@[simp] theorem noResponse_sr (s : State) : (noResponse s).sr = s.sr := rfl
@[simp] theorem noResponse_bitcnt (s : State) : (noResponse s).bitcnt = s.bitcnt := rfl
@[simp] theorem noResponse_result (s : State) : (noResponse s).result = s.result := rfl
@[simp] theorem noResponse_slph (s : State) : (noResponse s).slph = s.slph := rfl
@[simp] theorem noResponse_temp (s : State) : (noResponse s).temp = s.temp := rfl
@[simp] theorem noResponse_heating (s : State) : (noResponse s).heating = s.heating := rfl
@[simp] theorem noResponse_wdph (s : State) : (noResponse s).wdph = s.wdph := rfl
@[simp] theorem noResponse_deadline (s : State) : (noResponse s).deadline = s.deadline := rfl
@[simp] theorem noResponse_stopflag (s : State) : (noResponse s).stopflag = s.stopflag := rfl
@[simp] theorem noResponse_kill (s : State) : (noResponse s).kill = s.kill := rfl
@[simp] theorem noResponse_loaded (s : State) : (noResponse s).loaded = s.loaded := rfl
@[simp] theorem noResponse_own (s : State) : (noResponse s).own = s.own := rfl
@[simp] theorem noResponse_params (s : State) : (noResponse s).params = s.params := rfl
@[simp] theorem noResponse_now (s : State) : (noResponse s).now = s.now := rfl
@[simp] theorem noResponse_sensor (s : State) : (noResponse s).sensor = s.sensor := rfl
@[simp] theorem noResponse_side (s : State) : (noResponse s).side = s.side := rfl
@[simp] theorem noResponse_inbox (s : State) : (noResponse s).inbox = s.inbox := rfl
@[simp] theorem noResponse_shutdownRequested (s : State) : (noResponse s).shutdownRequested = s.shutdownRequested := rfl
@[simp] theorem noResponse_fresh (s : State) : (noResponse s).fresh = s.fresh := rfl
@[simp] theorem noResponse_response (s : State) : (noResponse s).response = none := rfl
@[simp] theorem noResponse_events (s : State) : (noResponse s).events = s.events := rfl

/-! `respondOk` and `raiseFault` are responses. -/

@[simp] theorem respondOk_cs (s : State) (d : List Byte) : (respondOk d s).cs = s.cs := rfl
@[simp] theorem respondOk_clk (s : State) (d : List Byte) : (respondOk d s).clk = s.clk := rfl
@[simp] theorem respondOk_heat (s : State) (d : List Byte) : (respondOk d s).heat = s.heat := rfl
@[simp] theorem respondOk_sr (s : State) (d : List Byte) : (respondOk d s).sr = s.sr := rfl
@[simp] theorem respondOk_bitcnt (s : State) (d : List Byte) : (respondOk d s).bitcnt = s.bitcnt := rfl
@[simp] theorem respondOk_result (s : State) (d : List Byte) : (respondOk d s).result = s.result := rfl
@[simp] theorem respondOk_slph (s : State) (d : List Byte) : (respondOk d s).slph = s.slph := rfl
@[simp] theorem respondOk_temp (s : State) (d : List Byte) : (respondOk d s).temp = s.temp := rfl
@[simp] theorem respondOk_heating (s : State) (d : List Byte) : (respondOk d s).heating = s.heating := rfl
@[simp] theorem respondOk_wdph (s : State) (d : List Byte) : (respondOk d s).wdph = s.wdph := rfl
@[simp] theorem respondOk_deadline (s : State) (d : List Byte) : (respondOk d s).deadline = s.deadline := rfl
@[simp] theorem respondOk_stopflag (s : State) (d : List Byte) : (respondOk d s).stopflag = s.stopflag := rfl
@[simp] theorem respondOk_kill (s : State) (d : List Byte) : (respondOk d s).kill = s.kill := rfl
@[simp] theorem respondOk_loaded (s : State) (d : List Byte) : (respondOk d s).loaded = s.loaded := rfl
@[simp] theorem respondOk_own (s : State) (d : List Byte) : (respondOk d s).own = s.own := rfl
@[simp] theorem respondOk_params (s : State) (d : List Byte) : (respondOk d s).params = s.params := rfl
@[simp] theorem respondOk_now (s : State) (d : List Byte) : (respondOk d s).now = s.now := rfl
@[simp] theorem respondOk_sensor (s : State) (d : List Byte) : (respondOk d s).sensor = s.sensor := rfl
@[simp] theorem respondOk_side (s : State) (d : List Byte) : (respondOk d s).side = s.side := rfl
@[simp] theorem respondOk_inbox (s : State) (d : List Byte) : (respondOk d s).inbox = s.inbox := rfl
@[simp] theorem respondOk_shutdownRequested (s : State) (d : List Byte) : (respondOk d s).shutdownRequested = s.shutdownRequested := rfl
@[simp] theorem respondOk_fresh (s : State) (d : List Byte) : (respondOk d s).fresh = s.fresh := rfl
@[simp] theorem respondOk_response (s : State) (d : List Byte) : (respondOk d s).response = some ⟨.ok, .none, d⟩ := rfl
@[simp] theorem respondOk_events (s : State) (d : List Byte) : (respondOk d s).events = s.events := rfl

@[simp] theorem raiseFault_cs (s : State) (c : FaultCode) : (raiseFault c s).cs = s.cs := rfl
@[simp] theorem raiseFault_clk (s : State) (c : FaultCode) : (raiseFault c s).clk = s.clk := rfl
@[simp] theorem raiseFault_heat (s : State) (c : FaultCode) : (raiseFault c s).heat = s.heat := rfl
@[simp] theorem raiseFault_sr (s : State) (c : FaultCode) : (raiseFault c s).sr = s.sr := rfl
@[simp] theorem raiseFault_bitcnt (s : State) (c : FaultCode) : (raiseFault c s).bitcnt = s.bitcnt := rfl
@[simp] theorem raiseFault_result (s : State) (c : FaultCode) : (raiseFault c s).result = s.result := rfl
@[simp] theorem raiseFault_slph (s : State) (c : FaultCode) : (raiseFault c s).slph = s.slph := rfl
@[simp] theorem raiseFault_temp (s : State) (c : FaultCode) : (raiseFault c s).temp = s.temp := rfl
@[simp] theorem raiseFault_heating (s : State) (c : FaultCode) : (raiseFault c s).heating = s.heating := rfl
@[simp] theorem raiseFault_wdph (s : State) (c : FaultCode) : (raiseFault c s).wdph = s.wdph := rfl
@[simp] theorem raiseFault_deadline (s : State) (c : FaultCode) : (raiseFault c s).deadline = s.deadline := rfl
@[simp] theorem raiseFault_stopflag (s : State) (c : FaultCode) : (raiseFault c s).stopflag = s.stopflag := rfl
@[simp] theorem raiseFault_kill (s : State) (c : FaultCode) : (raiseFault c s).kill = s.kill := rfl
@[simp] theorem raiseFault_loaded (s : State) (c : FaultCode) : (raiseFault c s).loaded = s.loaded := rfl
@[simp] theorem raiseFault_own (s : State) (c : FaultCode) : (raiseFault c s).own = s.own := rfl
@[simp] theorem raiseFault_params (s : State) (c : FaultCode) : (raiseFault c s).params = s.params := rfl
@[simp] theorem raiseFault_now (s : State) (c : FaultCode) : (raiseFault c s).now = s.now := rfl
@[simp] theorem raiseFault_sensor (s : State) (c : FaultCode) : (raiseFault c s).sensor = s.sensor := rfl
@[simp] theorem raiseFault_side (s : State) (c : FaultCode) : (raiseFault c s).side = s.side := rfl
@[simp] theorem raiseFault_inbox (s : State) (c : FaultCode) : (raiseFault c s).inbox = s.inbox := rfl
@[simp] theorem raiseFault_shutdownRequested (s : State) (c : FaultCode) : (raiseFault c s).shutdownRequested = s.shutdownRequested := rfl
@[simp] theorem raiseFault_fresh (s : State) (c : FaultCode) : (raiseFault c s).fresh = s.fresh := rfl
@[simp] theorem raiseFault_response (s : State) (c : FaultCode) : (raiseFault c s).response = some ⟨.fault, c, []⟩ := rfl
@[simp] theorem raiseFault_events (s : State) (c : FaultCode) : (raiseFault c s).events = s.events := rfl

/-! `updateTemperature` writes TEMP. -/

@[simp] theorem updateTemperature_cs (s : State) (t : Ticks) : (updateTemperature t s).cs = s.cs := rfl
@[simp] theorem updateTemperature_clk (s : State) (t : Ticks) : (updateTemperature t s).clk = s.clk := rfl
@[simp] theorem updateTemperature_heat (s : State) (t : Ticks) : (updateTemperature t s).heat = s.heat := rfl
@[simp] theorem updateTemperature_sr (s : State) (t : Ticks) : (updateTemperature t s).sr = s.sr := rfl
@[simp] theorem updateTemperature_bitcnt (s : State) (t : Ticks) : (updateTemperature t s).bitcnt = s.bitcnt := rfl
@[simp] theorem updateTemperature_result (s : State) (t : Ticks) : (updateTemperature t s).result = s.result := rfl
@[simp] theorem updateTemperature_slph (s : State) (t : Ticks) : (updateTemperature t s).slph = s.slph := rfl
@[simp] theorem updateTemperature_temp (s : State) (t : Ticks) : (updateTemperature t s).temp = t := rfl
@[simp] theorem updateTemperature_heating (s : State) (t : Ticks) : (updateTemperature t s).heating = s.heating := rfl
@[simp] theorem updateTemperature_wdph (s : State) (t : Ticks) : (updateTemperature t s).wdph = s.wdph := rfl
@[simp] theorem updateTemperature_deadline (s : State) (t : Ticks) : (updateTemperature t s).deadline = s.deadline := rfl
@[simp] theorem updateTemperature_stopflag (s : State) (t : Ticks) : (updateTemperature t s).stopflag = s.stopflag := rfl
@[simp] theorem updateTemperature_kill (s : State) (t : Ticks) : (updateTemperature t s).kill = s.kill := rfl
@[simp] theorem updateTemperature_loaded (s : State) (t : Ticks) : (updateTemperature t s).loaded = s.loaded := rfl
@[simp] theorem updateTemperature_own (s : State) (t : Ticks) : (updateTemperature t s).own = s.own := rfl
@[simp] theorem updateTemperature_params (s : State) (t : Ticks) : (updateTemperature t s).params = s.params := rfl
@[simp] theorem updateTemperature_now (s : State) (t : Ticks) : (updateTemperature t s).now = s.now := rfl
@[simp] theorem updateTemperature_sensor (s : State) (t : Ticks) : (updateTemperature t s).sensor = s.sensor := rfl
@[simp] theorem updateTemperature_side (s : State) (t : Ticks) : (updateTemperature t s).side = s.side := rfl
@[simp] theorem updateTemperature_inbox (s : State) (t : Ticks) : (updateTemperature t s).inbox = s.inbox := rfl
@[simp] theorem updateTemperature_shutdownRequested (s : State) (t : Ticks) : (updateTemperature t s).shutdownRequested = s.shutdownRequested := rfl
@[simp] theorem updateTemperature_fresh (s : State) (t : Ticks) : (updateTemperature t s).fresh = s.fresh := rfl
@[simp] theorem updateTemperature_response (s : State) (t : Ticks) : (updateTemperature t s).response = s.response := rfl
@[simp] theorem updateTemperature_events (s : State) (t : Ticks) : (updateTemperature t s).events = s.events := rfl

/-! `takeTurn` writes the side inputs and the inbox. -/

@[simp] theorem State.takeTurn_cs (s : State) (d : SideInputs) (rest : List Turn) : (s.takeTurn d rest).cs = s.cs := rfl
@[simp] theorem State.takeTurn_clk (s : State) (d : SideInputs) (rest : List Turn) : (s.takeTurn d rest).clk = s.clk := rfl
@[simp] theorem State.takeTurn_heat (s : State) (d : SideInputs) (rest : List Turn) : (s.takeTurn d rest).heat = s.heat := rfl
@[simp] theorem State.takeTurn_sr (s : State) (d : SideInputs) (rest : List Turn) : (s.takeTurn d rest).sr = s.sr := rfl
@[simp] theorem State.takeTurn_bitcnt (s : State) (d : SideInputs) (rest : List Turn) : (s.takeTurn d rest).bitcnt = s.bitcnt := rfl
@[simp] theorem State.takeTurn_result (s : State) (d : SideInputs) (rest : List Turn) : (s.takeTurn d rest).result = s.result := rfl
@[simp] theorem State.takeTurn_slph (s : State) (d : SideInputs) (rest : List Turn) : (s.takeTurn d rest).slph = s.slph := rfl
@[simp] theorem State.takeTurn_temp (s : State) (d : SideInputs) (rest : List Turn) : (s.takeTurn d rest).temp = s.temp := rfl
@[simp] theorem State.takeTurn_heating (s : State) (d : SideInputs) (rest : List Turn) : (s.takeTurn d rest).heating = s.heating := rfl
@[simp] theorem State.takeTurn_wdph (s : State) (d : SideInputs) (rest : List Turn) : (s.takeTurn d rest).wdph = s.wdph := rfl
@[simp] theorem State.takeTurn_deadline (s : State) (d : SideInputs) (rest : List Turn) : (s.takeTurn d rest).deadline = s.deadline := rfl
@[simp] theorem State.takeTurn_stopflag (s : State) (d : SideInputs) (rest : List Turn) : (s.takeTurn d rest).stopflag = s.stopflag := rfl
@[simp] theorem State.takeTurn_kill (s : State) (d : SideInputs) (rest : List Turn) : (s.takeTurn d rest).kill = s.kill := rfl
@[simp] theorem State.takeTurn_loaded (s : State) (d : SideInputs) (rest : List Turn) : (s.takeTurn d rest).loaded = s.loaded := rfl
@[simp] theorem State.takeTurn_own (s : State) (d : SideInputs) (rest : List Turn) : (s.takeTurn d rest).own = s.own := rfl
@[simp] theorem State.takeTurn_params (s : State) (d : SideInputs) (rest : List Turn) : (s.takeTurn d rest).params = s.params := rfl
@[simp] theorem State.takeTurn_now (s : State) (d : SideInputs) (rest : List Turn) : (s.takeTurn d rest).now = s.now := rfl
@[simp] theorem State.takeTurn_sensor (s : State) (d : SideInputs) (rest : List Turn) : (s.takeTurn d rest).sensor = s.sensor := rfl
@[simp] theorem State.takeTurn_side (s : State) (d : SideInputs) (rest : List Turn) : (s.takeTurn d rest).side = d := rfl
@[simp] theorem State.takeTurn_inbox (s : State) (d : SideInputs) (rest : List Turn) : (s.takeTurn d rest).inbox = rest := rfl
@[simp] theorem State.takeTurn_shutdownRequested (s : State) (d : SideInputs) (rest : List Turn) : (s.takeTurn d rest).shutdownRequested = s.shutdownRequested := rfl
@[simp] theorem State.takeTurn_fresh (s : State) (d : SideInputs) (rest : List Turn) : (s.takeTurn d rest).fresh = s.fresh := rfl
@[simp] theorem State.takeTurn_response (s : State) (d : SideInputs) (rest : List Turn) : (s.takeTurn d rest).response = s.response := rfl
@[simp] theorem State.takeTurn_events (s : State) (d : SideInputs) (rest : List Turn) : (s.takeTurn d rest).events = s.events := rfl

/-! `dataTaken` moves on in the environment's inputs. -/

@[simp] theorem State.dataTaken_cs (s : State) : s.dataTaken.cs = s.cs := by
  unfold State.dataTaken; split <;> rfl
@[simp] theorem State.dataTaken_clk (s : State) : s.dataTaken.clk = s.clk := by
  unfold State.dataTaken; split <;> rfl
@[simp] theorem State.dataTaken_heat (s : State) : s.dataTaken.heat = s.heat := by
  unfold State.dataTaken; split <;> rfl
@[simp] theorem State.dataTaken_sr (s : State) : s.dataTaken.sr = s.sr := by
  unfold State.dataTaken; split <;> rfl
@[simp] theorem State.dataTaken_bitcnt (s : State) : s.dataTaken.bitcnt = s.bitcnt := by
  unfold State.dataTaken; split <;> rfl
@[simp] theorem State.dataTaken_result (s : State) : s.dataTaken.result = s.result := by
  unfold State.dataTaken; split <;> rfl
@[simp] theorem State.dataTaken_slph (s : State) : s.dataTaken.slph = s.slph := by
  unfold State.dataTaken; split <;> rfl
@[simp] theorem State.dataTaken_temp (s : State) : s.dataTaken.temp = s.temp := by
  unfold State.dataTaken; split <;> rfl
@[simp] theorem State.dataTaken_heating (s : State) : s.dataTaken.heating = s.heating := by
  unfold State.dataTaken; split <;> rfl
@[simp] theorem State.dataTaken_wdph (s : State) : s.dataTaken.wdph = s.wdph := by
  unfold State.dataTaken; split <;> rfl
@[simp] theorem State.dataTaken_deadline (s : State) : s.dataTaken.deadline = s.deadline := by
  unfold State.dataTaken; split <;> rfl
@[simp] theorem State.dataTaken_stopflag (s : State) : s.dataTaken.stopflag = s.stopflag := by
  unfold State.dataTaken; split <;> rfl
@[simp] theorem State.dataTaken_kill (s : State) : s.dataTaken.kill = s.kill := by
  unfold State.dataTaken; split <;> rfl
@[simp] theorem State.dataTaken_loaded (s : State) : s.dataTaken.loaded = s.loaded := by
  unfold State.dataTaken; split <;> rfl
@[simp] theorem State.dataTaken_own (s : State) : s.dataTaken.own = s.own := by
  unfold State.dataTaken; split <;> rfl
@[simp] theorem State.dataTaken_params (s : State) : s.dataTaken.params = s.params := by
  unfold State.dataTaken; split <;> rfl
@[simp] theorem State.dataTaken_now (s : State) : s.dataTaken.now = s.now := by
  unfold State.dataTaken; split <;> rfl
@[simp] theorem State.dataTaken_side (s : State) : s.dataTaken.side = s.side := by
  unfold State.dataTaken; split <;> rfl
@[simp] theorem State.dataTaken_inbox (s : State) : s.dataTaken.inbox = s.inbox := by
  unfold State.dataTaken; split <;> rfl
@[simp] theorem State.dataTaken_shutdownRequested (s : State) : s.dataTaken.shutdownRequested = s.shutdownRequested := by
  unfold State.dataTaken; split <;> rfl
@[simp] theorem State.dataTaken_response (s : State) : s.dataTaken.response = s.response := by
  unfold State.dataTaken; split <;> rfl
@[simp] theorem State.dataTaken_events (s : State) : s.dataTaken.events = s.events := by
  unfold State.dataTaken; split <;> rfl

/-! A step of the environment: what it leaves alone in every block. -/

@[simp] theorem environmentStep_wdph (s : State) (dt : Nat) : (environmentStep dt s).wdph = s.wdph := by
  unfold environmentStep; split <;> rfl
@[simp] theorem environmentStep_loaded (s : State) (dt : Nat) : (environmentStep dt s).loaded = s.loaded := by
  unfold environmentStep; split <;> rfl
@[simp] theorem environmentStep_own (s : State) (dt : Nat) : (environmentStep dt s).own = s.own := by
  unfold environmentStep; split <;> rfl
@[simp] theorem environmentStep_params (s : State) (dt : Nat) : (environmentStep dt s).params = s.params := by
  unfold environmentStep; split <;> rfl
@[simp] theorem environmentStep_sensor (s : State) (dt : Nat) : (environmentStep dt s).sensor = s.sensor := by
  unfold environmentStep; split <;> rfl
@[simp] theorem environmentStep_side (s : State) (dt : Nat) : (environmentStep dt s).side = s.side := by
  unfold environmentStep; split <;> rfl
@[simp] theorem environmentStep_inbox (s : State) (dt : Nat) : (environmentStep dt s).inbox = s.inbox := by
  unfold environmentStep; split <;> rfl
@[simp] theorem environmentStep_shutdownRequested (s : State) (dt : Nat) : (environmentStep dt s).shutdownRequested = s.shutdownRequested := by
  unfold environmentStep; split <;> rfl
@[simp] theorem environmentStep_response (s : State) (dt : Nat) : (environmentStep dt s).response = s.response := by
  unfold environmentStep; split <;> rfl
@[simp] theorem environmentStep_events (s : State) (dt : Nat) : (environmentStep dt s).events = s.events := by
  unfold environmentStep; split <;> rfl
@[simp] theorem environmentStep_now (s : State) (dt : Nat) : (environmentStep dt s).now = s.now + dt := by
  unfold environmentStep; split <;> rfl

/-- A loaded block keeps its registers while time passes. -/
theorem environmentStep_loaded_eq (s : State) (dt : Nat) (h : s.loaded = true) :
    environmentStep dt s = { s with now := s.now + dt } := by
  simp [environmentStep, h]

end Sys2Proof.Machine
end

