-- ==== Sys2Proof/Laws/Ops.lean ====
section
/-! SUPPORT. What each shared operation can do, said once: proofs cite these and do not unfold the operations. -/

namespace Sys2Proof.Machine

open Sys2Proof

/-! Sequencing. -/

@[simp] theorem andThen_next (s : State) (k : State → Result) : andThen (.next s) k = k s := rfl
@[simp] theorem andThen_fault (r : Fault) (k : State → Result) : andThen (.fault r) k = .fault r := rfl
@[simp] theorem andThen_refused (r : Refusal) (k : State → Result) : andThen (.refused r) k = .refused r := rfl

/-- A next state is one state. -/
theorem next_eq_next {s t : State} : (Host.Outcome.next s : Result) = .next t ↔ t = s := by
  rw [Host.Outcome.next.injEq, eq_comm]

/-- A sequence answers a next state exactly when both its parts do. -/
theorem andThen_eq_next {o : Result} {k : State → Result} {t : State} :
    andThen o k = .next t ↔ ∃ s, o = .next s ∧ k s = .next t := by
  cases o <;> simp

/-- A sequence faults exactly when one of its parts does. -/
theorem andThen_eq_fault {o : Result} {k : State → Result} {f : Fault} :
    andThen o k = .fault f ↔ o = .fault f ∨ ∃ s, o = .next s ∧ k s = .fault f := by
  cases o <;> simp

/-- Sequencing is associative. -/
theorem andThen_assoc (o : Result) (k m : State → Result) :
    andThen (andThen o k) m = andThen o fun s => andThen (k s) m := by
  cases o <;> rfl

/-! Lines. -/

@[simp] theorem LineBits.get_all (b : Bool) (l : Line) : (LineBits.all b).get l = b := by cases l <;> rfl
@[simp] theorem LineBits.get_set_same (f : LineBits) (l : Line) (b : Bool) : (f.set l b).get l = b := by
  cases l <;> rfl
theorem LineBits.get_set_other (f : LineBits) {l m : Line} (b : Bool) (h : m ≠ l) :
    (f.set l b).get m = f.get m := by
  cases l <;> cases m <;> first | rfl | exact absurd rfl h
@[simp] theorem LineBits.all_cs (b : Bool) : (LineBits.all b).cs = b := rfl
@[simp] theorem LineBits.all_clk (b : Bool) : (LineBits.all b).clk = b := rfl
@[simp] theorem LineBits.all_data (b : Bool) : (LineBits.all b).data = b := rfl
@[simp] theorem LineBits.all_heat (b : Bool) : (LineBits.all b).heat = b := rfl
@[simp] theorem OutputLine.line_cs : OutputLine.cs.line = .cs := rfl
@[simp] theorem OutputLine.line_clk : OutputLine.clk.line = .clk := rfl
@[simp] theorem OutputLine.line_heat : OutputLine.heat.line = .heat := rfl
@[simp] theorem LineBits.get_cs (f : LineBits) : f.get .cs = f.cs := rfl
@[simp] theorem LineBits.get_clk (f : LineBits) : f.get .clk = f.clk := rfl
@[simp] theorem LineBits.get_data (f : LineBits) : f.get .data = f.data := rfl
@[simp] theorem LineBits.get_heat (f : LineBits) : f.get .heat = f.heat := rfl

/-- A write to an owned line drives its latch and does nothing else. -/
theorem lineWrite_owned {l : OutputLine} {s : State} (b : Level) (h : s.own.get l.line = true) :
    lineWrite l b s = .next (s.driveLatch l b) := by
  simp [lineWrite, h]

/-- A write to a line that is not owned is a fault (R222). -/
theorem lineWrite_unowned {l : OutputLine} {s : State} (b : Level) (h : s.own.get l.line = false) :
    lineWrite l b s = .fault (.lineNotOwned l.line) := by
  simp [lineWrite, h]

/-- All a line write can do when it answers a next state. -/
theorem lineWrite_eq_next {l : OutputLine} {b : Level} {s t : State} :
    lineWrite l b s = .next t ↔ s.own.get l.line = true ∧ t = s.driveLatch l b := by
  cases h : s.own.get l.line
  · simp [lineWrite_unowned b h]
  · simp only [lineWrite_owned b h, Host.Outcome.next.injEq, true_and]
    exact ⟨Eq.symm, Eq.symm⟩

/-- A line write is never refused. -/
theorem lineWrite_ne_refused (l : OutputLine) (b : Level) (s : State) (r : Refusal) :
    lineWrite l b s ≠ .refused r := by
  unfold lineWrite; split <;> simp

/-- Reading the data line where it is owned. -/
theorem lineRead_owned {s : State} (k : Level → State → Result) (h : s.own.data = true) :
    lineRead s k = k s.dataLevel s.dataTaken := by
  simp [lineRead, h]

/-- Reading the data line where it is not owned is a fault (R222). -/
theorem lineRead_unowned {s : State} (k : Level → State → Result) (h : s.own.data = false) :
    lineRead s k = .fault (.lineNotOwned .data) := by
  simp [lineRead, h]

/-- The level of DATA is the next listed one. -/
theorem State.dataLevel_cons {s : State} {b : Level} {rest : List Level} (h : s.sensor = b :: rest) :
    s.dataLevel = b := by
  simp [State.dataLevel, h]

/-- Taking a listed level moves on in the list and uses no free value. -/
theorem State.dataTaken_cons {s : State} {b : Level} {rest : List Level} (h : s.sensor = b :: rest) :
    s.dataTaken = { s with sensor := rest } := by
  simp [State.dataTaken, h]

/-- Giving back lines writes their reservations only. -/
theorem releaseLines_eq (ls : List Line) (s : State) :
    releaseLines ls s = { s with own := ls.foldl (fun f l => f.set l false) s.own } := by
  unfold releaseLines
  induction ls generalizing s with
  | nil => rfl
  | cons l ls ih => simp only [List.foldl_cons]; rw [ih]; rfl

/-- Giving back the four lines leaves none owned. -/
theorem releaseLines_all (s : State) : releaseLines releaseOrder s = { s with own := .all false } := by
  rw [releaseLines_eq]; rfl

/-! Time. -/

/-- A hold lasts at least its lower bound (R217). -/
theorem hold_now_ge (lo : Nat) (s : State) : s.now + lo ≤ (hold lo s).now := by
  simp [hold]

/-! The tests of a command. -/

theorem whenLoaded_loaded {s : State} (k : State → Result) (h : s.loaded = true) : whenLoaded s k = k s := by
  simp [whenLoaded, h]

theorem whenLoaded_unloaded {s : State} (k : State → Result) (h : s.loaded = false) :
    whenLoaded s k = .refused .unloaded := by
  simp [whenLoaded, h]

/-- A command answers a next state only of a loaded block. -/
theorem whenLoaded_eq_next {s t : State} {k : State → Result} :
    whenLoaded s k = .next t ↔ s.loaded = true ∧ k s = .next t := by
  unfold whenLoaded; split <;> simp_all

theorem whenLoaded_eq_fault {s : State} {k : State → Result} {f : Fault} :
    whenLoaded s k = .fault f ↔ s.loaded = true ∧ k s = .fault f := by
  unfold whenLoaded; split <;> simp_all

theorem whenTransferred_ok {s : State} (k : State → Result) (h : s.side.xferFault = false) :
    whenTransferred s k = k s := by
  simp [whenTransferred, h]

theorem whenTransferred_fault {s : State} (k : State → Result) (h : s.side.xferFault = true) :
    whenTransferred s k = .next (raiseFault .xfer s) := by
  simp [whenTransferred, h]

/-- A command that moves data faults with no state change, or performs its operation. -/
theorem whenTransferred_eq_next {s t : State} {k : State → Result} :
    whenTransferred s k = .next t ↔
      (s.side.xferFault = true ∧ t = raiseFault .xfer s) ∨ (s.side.xferFault = false ∧ k s = .next t) := by
  cases h : s.side.xferFault
  · simp [whenTransferred_ok k h]
  · simp only [whenTransferred_fault k h, Host.Outcome.next.injEq, true_and, Bool.true_eq_false, false_and, or_false]
    exact ⟨Eq.symm, Eq.symm⟩

theorem whenTransferred_eq_fault {s : State} {k : State → Result} {f : Fault} :
    whenTransferred s k = .fault f ↔ s.side.xferFault = false ∧ k s = .fault f := by
  unfold whenTransferred; split <;> simp_all

/-! The heater. -/

/-- Writing the heater state of a block that owns the heat line: HEATING and HEAT together, and one strobe. -/
theorem setHeater_owned {s : State} (on : Bool) (e : Event) (h : s.own.heat = true) :
    setHeater on e s = .next { s with heating := on, heat := on, events := s.events ++ [e] } := by
  simp [setHeater, lineWrite, h, State.driveLatch, emit]

theorem setHeater_unowned {s : State} (on : Bool) (e : Event) (h : s.own.heat = false) :
    setHeater on e s = .fault (.lineNotOwned .heat) := by
  simp [setHeater, lineWrite, h]

/-- All that writing the heater state can do when it answers a next state. -/
theorem setHeater_eq_next {s t : State} {on : Bool} {e : Event} :
    setHeater on e s = .next t ↔
      s.own.heat = true ∧ t = { s with heating := on, heat := on, events := s.events ++ [e] } := by
  cases h : s.own.heat
  · simp [setHeater_unowned on e h]
  · simp [setHeater_owned on e h, eq_comm]

theorem setHeater_eq_fault {s : State} {on : Bool} {e : Event} {f : Fault} :
    setHeater on e s = .fault f ↔ s.own.heat = false ∧ f = .lineNotOwned .heat := by
  cases h : s.own.heat
  · simp [setHeater_unowned on e h, eq_comm]
  · simp [setHeater_owned on e h]

/-- All that REQUEST_ON can do when it answers a next state (R121). -/
theorem requestOn_eq_next {s t : State} :
    requestOn s = .next t ↔ s.own.heat = true ∧
      t = (if aboveSoftLimit s
        then { s with heating := false, heat := false, events := s.events ++ [.refused] }
        else { s with heating := true, heat := true, events := s.events ++ [.turnedOn] }) := by
  unfold requestOn; split <;> simp_all [setHeater_eq_next]

/-- All that REQUEST_OFF can do when it answers a next state (R122). -/
theorem requestOff_eq_next {s t : State} :
    requestOff s = .next t ↔ s.own.heat = true ∧
      t = { s with heating := false, heat := false, events := s.events ++ [.turnedOff] } :=
  setHeater_eq_next

/-- All that FORCE_OFF can do when it answers a next state (R123). -/
theorem forceOff_eq_next {s t : State} :
    forceOff s = .next t ↔ s.own.heat = true ∧
      t = { s with heating := false, heat := false, events := s.events ++ [.turnedOff] } :=
  setHeater_eq_next

/-! INIT. -/

/-- No line is busy: every line becomes owned. -/
theorem acquireLines_all_ok {s : State} (h : s.side.busy = .all false) :
    acquireLines [] acquireOrder s = (true, { s with own := .all true }) := by
  simp [acquireLines, acquireOrder, h]
  rfl

/-- A busy line: the block ends with the reservations it began with, none (R205). -/
theorem acquireLines_some_busy {s : State} (hb : s.side.busy ≠ .all false) (ho : s.own = .all false) :
    acquireLines [] acquireOrder s = (false, s) := by
  obtain ⟨⟨cs, clk, data, heat⟩, hbusy⟩ : ∃ b, s.side.busy = b := ⟨_, rfl⟩
  have hs : ({ s with own := .all false } : State) = s := by rw [← ho]
  cases cs <;> cases clk <;> cases data <;> cases heat <;>
    first
    | exact absurd hbusy hb
    | (simp [acquireLines, acquireOrder, hbusy, releaseLines, ho, State.setOwn, LineBits.set, LineBits.all]
       first | done | exact hs)

/-- The idle levels are driven where the block owns its lines. -/
theorem driveIdleLevels_owned {s : State} (h : s.own = .all true) :
    driveIdleLevels s = .next { s with cs := true, clk := false, heat := false } := by
  simp [driveIdleLevels, lineWrite, h, State.driveLatch]

end Sys2Proof.Machine
end

