-- ==== Sys2Proof/Laws/Steps.lean ====
section
/-! SUPPORT. What one step of each sequencer, and one step of the machine, can do. -/

namespace Sys2Proof.Machine

open Sys2Proof

/-- All that a micro-step of the serial engine can do when it answers a next state (R81 to R87). -/
theorem slMicroStep_cases {s t : State} (h : slMicroStep s = .next t) :
    (s.slph = .select ∧ s.own.cs = true ∧ t = { s with cs := false, sr := 0, bitcnt := 0, slph := .rise }) ∨
    (s.slph = .rise ∧ s.own.clk = true ∧ t = { s with clk := true, slph := .holdHi }) ∨
    (s.slph = .holdHi ∧ t = { hold s.params.tHalfMin s with slph := .sample }) ∨
    (s.slph = .sample ∧ s.own.data = true ∧
      t = { s.dataTaken with sr := shiftIn s.sr s.dataLevel, bitcnt := s.bitcnt + 1, slph := .fall }) ∨
    (s.slph = .fall ∧ s.own.clk = true ∧ t = { s with clk := false, slph := .holdLo }) ∨
    (s.slph = .holdLo ∧
      t = { hold s.params.tHalfMin s with slph := if frameComplete s then .deselect else .rise }) ∨
    (s.slph = .deselect ∧ s.own.cs = true ∧ t = { s with cs := true, result := readingOf s.sr, slph := .idle }) := by
  unfold slMicroStep at h
  split at h <;> rename_i hp
  · cases h
  · obtain ⟨u, hu, hk⟩ := andThen_eq_next.1 h
    obtain ⟨ho, rfl⟩ := lineWrite_eq_next.1 hu
    cases hk; exact .inl ⟨hp, ho, rfl⟩
  · obtain ⟨u, hu, hk⟩ := andThen_eq_next.1 h
    obtain ⟨ho, rfl⟩ := lineWrite_eq_next.1 hu
    cases hk; exact .inr (.inl ⟨hp, ho, rfl⟩)
  · cases h; exact .inr (.inr (.inl ⟨hp, rfl⟩))
  · unfold slSample lineRead at h
    split at h
    · cases h
      exact .inr (.inr (.inr (.inl ⟨hp, ‹_›, by simp⟩)))
    · cases h
  · obtain ⟨u, hu, hk⟩ := andThen_eq_next.1 h
    obtain ⟨ho, rfl⟩ := lineWrite_eq_next.1 hu
    cases hk; exact .inr (.inr (.inr (.inr (.inl ⟨hp, ho, rfl⟩))))
  · cases h; exact .inr (.inr (.inr (.inr (.inr (.inl ⟨hp, rfl⟩)))))
  · obtain ⟨u, hu, hk⟩ := andThen_eq_next.1 h
    obtain ⟨ho, rfl⟩ := lineWrite_eq_next.1 hu
    cases hk; exact .inr (.inr (.inr (.inr (.inr (.inr ⟨hp, ho, rfl⟩)))))

/-- A row of micro-steps is its first micro-step and the rest. -/
@[simp] theorem slMicroSteps_zero (s : State) : slMicroSteps 0 s = .next s := rfl

theorem slMicroSteps_succ (n : Nat) (s : State) :
    slMicroSteps (n + 1) s = andThen (slMicroStep s) (slMicroSteps n) := rfl

/-- Rows of micro-steps join. -/
theorem slMicroSteps_add (m n : Nat) (s : State) :
    slMicroSteps (m + n) s = andThen (slMicroSteps m s) (slMicroSteps n) := by
  induction m generalizing s with
  | zero => simp
  | succ m ih =>
    rw [Nat.succ_add, slMicroSteps_succ, slMicroSteps_succ, andThen_assoc]
    congr 1; funext u; exact ih u

/-- All that WD_PUBLISH can do when it answers a next state (R104). -/
theorem wdPublish_eq_next {s t : State} :
    wdPublish s = .next t ↔
      (breach s s.result = true ∧ s.own.heat = true ∧
        t = { s with temp := s.result, heating := false, heat := false, wdph := .idle,
                     events := s.events ++ [.turnedOff] ++ [.overTemp] }) ∨
      (breach s s.result = false ∧ t = { s with temp := s.result, wdph := .idle }) := by
  have hb : breach (updateTemperature s.result s) s.result = breach s s.result := rfl
  unfold wdPublish
  simp only [hb]
  cases h : breach s s.result
  · simp only [Bool.false_eq_true, if_false, Host.Outcome.next.injEq, false_and, false_or, true_and]
    exact ⟨Eq.symm, Eq.symm⟩
  · simp only [if_true, andThen_eq_next, forceOff_eq_next]
    constructor
    · rintro ⟨u, ⟨ho, rfl⟩, hk⟩; cases hk; exact .inl ⟨trivial, ho, rfl⟩
    · rintro (⟨-, ho, rfl⟩ | ⟨h, -⟩)
      · exact ⟨_, ⟨ho, rfl⟩, rfl⟩
      · cases h

/-- All that a step of the watchdog can do when it answers a next state (R101 to R106). -/
theorem watchdogStep_cases {s t : State} (h : watchdogStep s = .next t) :
    (s.wdph = .top ∧ t = { s with wdph := if stopRequested s then .term else .arm }) ∨
    (s.wdph = .arm ∧ t = { s with deadline := s.now + s.params.period, slph := .select, wdph := .sample }) ∨
    (s.wdph = .sample ∧ s.slph = .idle ∧ t = { s with wdph := .publish }) ∨
    (s.wdph = .sample ∧ s.slph ≠ .idle ∧ slMicroStep s = .next t) ∨
    (s.wdph = .publish ∧ wdPublish s = .next t) ∨
    (s.wdph = .idle ∧ stopRequested s = true ∧ t = { s with wdph := .term }) ∨
    (s.wdph = .idle ∧ stopRequested s = false ∧ deadlinePassed s = true ∧ t = { s with wdph := .top }) ∨
    (s.wdph = .idle ∧ stopRequested s = false ∧ deadlinePassed s = false ∧ t = hold s.params.tYield s) := by
  unfold watchdogStep at h
  split at h <;> rename_i hp
  · cases h
  · cases h; exact .inl ⟨hp, rfl⟩
  · cases h; exact .inr (.inl ⟨hp, rfl⟩)
  · unfold wdSample at h
    split at h <;> rename_i hi
    · cases h; exact .inr (.inr (.inl ⟨hp, hi, rfl⟩))
    · exact .inr (.inr (.inr (.inl ⟨hp, hi, h⟩)))
  · exact .inr (.inr (.inr (.inr (.inl ⟨hp, h⟩))))
  · unfold wdIdle at h
    split at h <;> rename_i hst
    · cases h; exact .inr (.inr (.inr (.inr (.inr (.inl ⟨hp, hst, rfl⟩)))))
    · have hst' : stopRequested s = false := by simpa using hst
      split at h <;> rename_i hd
      · cases h; exact .inr (.inr (.inr (.inr (.inr (.inr (.inl ⟨hp, hst', hd, rfl⟩))))))
      · cases h; exact .inr (.inr (.inr (.inr (.inr (.inr (.inr ⟨hp, hst', by simpa using hd, rfl⟩))))))
  · cases h

/-- All that INIT can do when it answers a next state, where no line was owned before (R201, R205). -/
theorem execInit_cases {s t : State} (ho : s.own = .all false) (h : execInit s = .next t) :
    s.loaded = false ∧
    ((s.side.busy = .all false ∧
        t = respondOk [] (initRegisters { s with own := .all true, cs := true, clk := false, heat := false })) ∨
     (s.side.busy ≠ .all false ∧ t = raiseFault .noLine s)) := by
  unfold execInit at h
  split at h <;> rename_i hl
  · cases h
  · refine ⟨by simpa using hl, ?_⟩
    by_cases hb : s.side.busy = .all false
    · rw [acquireLines_all_ok hb] at h
      simp only [if_true] at h
      rw [driveIdleLevels_owned rfl] at h
      cases h; exact .inl ⟨hb, rfl⟩
    · rw [acquireLines_some_busy hb ho] at h
      cases h; exact .inr ⟨hb, rfl⟩

/-! The machine. -/

/-- Where no turn is listed the agents move by themselves. -/
theorem step_own {s : State} (h : s.inbox = []) : step s = ownStep s := by
  rw [step, h, turnStep]

/-- A listed wait is the environment's step. -/
theorem step_wait {s : State} {dt : Nat} {rest : List Turn} (h : s.inbox = .wait dt :: rest) :
    step s = .next (environmentStep dt { s with inbox := rest }) := by
  rw [step, h, turnStep]

/-- A presented word that decodes to an instruction with a step is performed. -/
theorem step_present {s : State} {word : PortWord} {side : SideInputs} {rest : List Turn} {i : Instr}
    (h : s.inbox = .present word side :: rest) (hd : decode word = .instr i)
    (hr : ∀ r, exec i (s.takeTurn side rest) ≠ .refused r) : step s = exec i (s.takeTurn side rest) := by
  simp only [step, h, turnStep, hd]
  cases he : exec i (s.takeTurn side rest) with
  | next t => rfl
  | fault r => rfl
  | refused r => exact absurd he (hr r)

/-- A presented instruction without a step is passed over. -/
theorem step_refused {s : State} {word : PortWord} {side : SideInputs} {rest : List Turn} {i : Instr} {r : Refusal}
    (h : s.inbox = .present word side :: rest) (hd : decode word = .instr i)
    (hr : exec i (s.takeTurn side rest) = .refused r) : step s = step { s with inbox := rest } := by
  simp only [step, h, turnStep, hd, hr]

/-- A presented word that does not decode is passed over. -/
theorem step_rejected {s : State} {word : PortWord} {side : SideInputs} {rest : List Turn} {e : DecodeError}
    (h : s.inbox = .present word side :: rest) (hd : decode word = .rejected e) :
    step s = step { s with inbox := rest } := by
  simp only [step, h, turnStep, hd]

/-- All that the agents can do by themselves when that answers a next state. -/
theorem ownStep_cases {s t : State} (h : ownStep s = .next t) :
    (watchdogEnabled s = true ∧ exec .wdCycle s = .next t) ∨
    (watchdogEnabled s = false ∧ shutdownJoined s = true ∧ exec .shutdown s = .next t) ∨
    (watchdogEnabled s = false ∧ shutdownJoined s = false ∧ t = idleStep s) := by
  unfold ownStep at h
  split at h <;> rename_i hw
  · exact .inl ⟨hw, h⟩
  · split at h <;> rename_i hj
    · exact .inr (.inl ⟨by simpa using hw, hj, h⟩)
    · cases h; exact .inr (.inr ⟨by simpa using hw, by simpa using hj, rfl⟩)

/-- All that a step of the machine can do when it answers a next state: the turns before the one taken have no step. -/
theorem step_cases {s t : State} (h : step s = .next t) :
    (∃ pre word side rest i, s.inbox = pre ++ .present word side :: rest ∧ decode word = .instr i ∧
      exec i (s.takeTurn side rest) = .next t) ∨
    (∃ pre dt rest, s.inbox = pre ++ .wait dt :: rest ∧ t = environmentStep dt { s with inbox := rest }) ∨
    ownStep { s with inbox := [] } = .next t := by
  obtain ⟨l, hl⟩ : ∃ l, s.inbox = l := ⟨_, rfl⟩
  induction l generalizing s with
  | nil =>
    rw [step_own hl] at h
    exact .inr (.inr (by rw [← hl]; exact h))
  | cons turn rest ih =>
    by_cases hp : step s = step { s with inbox := rest }
    · rw [hp] at h
      rcases ih h rfl with ⟨pre, w, d, r, i, hin, hx⟩ | ⟨pre, dt, r, hin, hx⟩ | hx
      · exact .inl ⟨turn :: pre, w, d, r, i, by rw [hl, show rest = _ from hin]; rfl, hx⟩
      · exact .inr (.inl ⟨turn :: pre, dt, r, by rw [hl, show rest = _ from hin]; rfl, hx⟩)
      · exact .inr (.inr hx)
    · cases turn with
      | wait dt =>
        rw [step_wait hl] at h; cases h
        exact .inr (.inl ⟨[], dt, rest, hl, rfl⟩)
      | present word side =>
        cases hd : decode word with
        | rejected e => exact absurd (step_rejected hl hd) hp
        | instr i =>
          cases he : exec i (s.takeTurn side rest) with
          | next u =>
            rw [step_present hl hd (by simp [he]), he] at h; cases h
            exact .inl ⟨[], word, side, rest, i, hl, hd, he⟩
          | fault r => rw [step_present hl hd (by simp [he]), he] at h; cases h
          | refused r => exact absurd (step_refused hl hd he) hp

end Sys2Proof.Machine
end

