-- ==== Sys2Proof/Laws/Exec.lean ====
section
/-! SUPPORT. What each instruction can do when it answers a next state, said once per instruction. -/

namespace Sys2Proof.Machine

open Sys2Proof

theorem execBadchan_eq_next {op chan : BitVec 2} {byte : Byte} {s t : State} :
    execBadchan op chan byte s = .next t ↔ s.loaded = true ∧ t = raiseFault .badChan s := by
  simp only [execBadchan, whenLoaded_eq_next, next_eq_next]

theorem execOpenTemp_eq_next {byte : Byte} {s t : State} :
    execOpenTemp byte s = .next t ↔ s.loaded = true ∧ t = respondOk [] s := by
  simp only [execOpenTemp, whenLoaded_eq_next, next_eq_next]

theorem execOpenStatus_eq_next {byte : Byte} {s t : State} :
    execOpenStatus byte s = .next t ↔ s.loaded = true ∧ t = respondOk [] s := by
  simp only [execOpenStatus, whenLoaded_eq_next, next_eq_next]

theorem execReadTemp_eq_next {byte : Byte} {s t : State} :
    execReadTemp byte s = .next t ↔ s.loaded = true ∧
      ((s.side.xferFault = true ∧ t = raiseFault .xfer s) ∨
        (s.side.xferFault = false ∧ t = respondOk (temperatureString s.temp) s)) := by
  simp only [execReadTemp, whenLoaded_eq_next, whenTransferred_eq_next, next_eq_next]

theorem execReadStatus_eq_next {byte : Byte} {s t : State} :
    execReadStatus byte s = .next t ↔ s.loaded = true ∧
      ((s.side.xferFault = true ∧ t = raiseFault .xfer s) ∨
        (s.side.xferFault = false ∧ t = respondOk (statusString s.heating) s)) := by
  simp only [execReadStatus, whenLoaded_eq_next, whenTransferred_eq_next, next_eq_next]

theorem execWriteTemp_eq_next {byte : Byte} {s t : State} :
    execWriteTemp byte s = .next t ↔ s.loaded = true ∧
      ((s.side.xferFault = true ∧ t = raiseFault .xfer s) ∨ (s.side.xferFault = false ∧ t = respondOk [] s)) := by
  simp only [execWriteTemp, whenLoaded_eq_next, whenTransferred_eq_next, next_eq_next]

theorem execWriteStatusOn_eq_next {s t : State} :
    execWriteStatusOn s = .next t ↔ s.loaded = true ∧
      ((s.side.xferFault = true ∧ t = raiseFault .xfer s) ∨
        (s.side.xferFault = false ∧ ∃ u, requestOn s = .next u ∧ t = respond ⟨requestOnStatus s, .none, []⟩ u)) := by
  simp only [execWriteStatusOn, whenLoaded_eq_next, whenTransferred_eq_next, andThen_eq_next, next_eq_next]

theorem execWriteStatusOff_eq_next {byte : Byte} {s t : State} :
    execWriteStatusOff byte s = .next t ↔ s.loaded = true ∧
      ((s.side.xferFault = true ∧ t = raiseFault .xfer s) ∨
        (s.side.xferFault = false ∧ ∃ u, requestOff s = .next u ∧ t = respondOk [] u)) := by
  simp only [execWriteStatusOff, whenLoaded_eq_next, whenTransferred_eq_next, andThen_eq_next, next_eq_next]

theorem execReleaseTemp_eq_next {byte : Byte} {s t : State} :
    execReleaseTemp byte s = .next t ↔ s.loaded = true ∧ t = respondOk [] s := by
  simp only [execReleaseTemp, whenLoaded_eq_next, next_eq_next]

theorem execReleaseStatus_eq_next {byte : Byte} {s t : State} :
    execReleaseStatus byte s = .next t ↔ s.loaded = true ∧ ∃ u, forceOff s = .next u ∧ t = respondOk [] u := by
  simp only [execReleaseStatus, whenLoaded_eq_next, andThen_eq_next, next_eq_next]

theorem execRequestOn_eq_next {ticks : Ticks} {s t : State} :
    execRequestOn ticks s = .next t ↔ s.loaded = true ∧
      ∃ u, requestOn s = .next u ∧ t = respond ⟨requestOnStatus s, .none, []⟩ u := by
  simp only [execRequestOn, whenLoaded_eq_next, andThen_eq_next, next_eq_next]

theorem execRequestOff_eq_next {ticks : Ticks} {s t : State} :
    execRequestOff ticks s = .next t ↔ s.loaded = true ∧ ∃ u, requestOff s = .next u ∧ t = respondOk [] u := by
  simp only [execRequestOff, whenLoaded_eq_next, andThen_eq_next, next_eq_next]

theorem execForceOff_eq_next {ticks : Ticks} {s t : State} :
    execForceOff ticks s = .next t ↔ s.loaded = true ∧ ∃ u, forceOff s = .next u ∧ t = noResponse u := by
  simp only [execForceOff, whenLoaded_eq_next, andThen_eq_next, next_eq_next]

theorem execUpdateTemperature_eq_next {ticks : Ticks} {s t : State} :
    execUpdateTemperature ticks s = .next t ↔ s.loaded = true ∧ t = noResponse { s with temp := ticks } := by
  simp only [execUpdateTemperature, updateTemperature, whenLoaded_eq_next, next_eq_next]

/-- A micro-step keeps everything but the serial engine's registers and lines, the sensor's levels, time and the
counter of free values. -/
theorem slMicroStep_frame {s t : State} (h : slMicroStep s = .next t) :
    t = { s with cs := t.cs, clk := t.clk, sr := t.sr, bitcnt := t.bitcnt, result := t.result, slph := t.slph,
                 now := t.now, sensor := t.sensor, fresh := t.fresh } ∧ s.now ≤ t.now := by
  rcases slMicroStep_cases h with ⟨-, -, rfl⟩ | ⟨-, -, rfl⟩ | ⟨-, rfl⟩ | ⟨-, -, rfl⟩ | ⟨-, -, rfl⟩ | ⟨-, rfl⟩ |
    ⟨-, -, rfl⟩ <;> refine ⟨?_, ?_⟩ <;> try first | rfl | exact Nat.le_refl _ | exact Nat.le_add_right _ _
  · cases hs : s.sensor <;> simp [State.dataTaken, hs]
  · simp

/-- What every step of the watchdog leaves alone, and that time does not go back (R185). -/
theorem watchdogStep_frame {s t : State} (h : watchdogStep s = .next t) :
    t.stopflag = s.stopflag ∧ t.kill = s.kill ∧ t.own = s.own ∧ t.loaded = s.loaded ∧ t.params = s.params ∧
    t.side = s.side ∧ t.inbox = s.inbox ∧ t.shutdownRequested = s.shutdownRequested ∧ t.response = s.response ∧
    s.now ≤ t.now := by
  rcases watchdogStep_cases h with ⟨-, rfl⟩ | ⟨-, rfl⟩ | ⟨-, -, rfl⟩ | ⟨-, -, h⟩ | ⟨-, h⟩ | ⟨-, -, rfl⟩ |
    ⟨-, -, -, rfl⟩ | ⟨-, -, -, rfl⟩
  case inr.inr.inr.inl =>
    obtain ⟨h1, h2⟩ := slMicroStep_frame h
    rw [h1]; simp [h2]
  case inr.inr.inr.inr.inl => rcases wdPublish_eq_next.1 h with ⟨-, -, rfl⟩ | ⟨-, rfl⟩ <;> simp
  all_goals simp

/-- A row of micro-steps keeps what one keeps. -/
theorem slMicroSteps_frame {n : Nat} {s t : State} (h : slMicroSteps n s = .next t) :
    t = { s with cs := t.cs, clk := t.clk, sr := t.sr, bitcnt := t.bitcnt, result := t.result, slph := t.slph,
                 now := t.now, sensor := t.sensor, fresh := t.fresh } ∧ s.now ≤ t.now := by
  induction n generalizing s with
  | zero => cases h; exact ⟨rfl, Nat.le_refl _⟩
  | succ n ih =>
    rw [slMicroSteps_succ] at h
    obtain ⟨u, hu, hk⟩ := andThen_eq_next.1 h
    obtain ⟨h1, h2⟩ := slMicroStep_frame hu
    obtain ⟨h3, h4⟩ := ih hk
    refine ⟨h3.trans ?_, Nat.le_trans h2 h4⟩
    rw [h1]

/-- All that SAMPLE changes when it answers a next state (R90). -/
theorem execSample_frame {frame : Frame} {s t : State} (h : execSample frame s = .next t) :
    s.loaded = true ∧ s.wdph = .sample ∧ s.slph = .select ∧
    t = { s with cs := t.cs, clk := t.clk, sr := t.sr, bitcnt := t.bitcnt, result := t.result, slph := t.slph,
                 now := t.now, sensor := t.sensor, fresh := t.fresh, response := none } ∧ s.now ≤ t.now := by
  obtain ⟨hl, h⟩ := whenLoaded_eq_next.1 h
  split at h <;> rename_i hst
  · obtain ⟨hw, hs⟩ : s.wdph = .sample ∧ s.slph = .select := by simpa [sampleStarted] using hst
    obtain ⟨h1, h2⟩ := slMicroSteps_frame h
    exact ⟨hl, hw, hs, h1, h2⟩
  · cases h

theorem execWdCycle_eq_next {s t : State} :
    execWdCycle s = .next t ↔ s.loaded = true ∧ watchdogStep (noResponse s) = .next t := by
  rw [execWdCycle, whenLoaded_eq_next]

/-- Acquiring lines writes their reservations only. -/
theorem acquireLines_own (ls acquired : List Line) (s : State) :
    ∃ o, (acquireLines acquired ls s).2 = { s with own := o } := by
  induction ls generalizing acquired s with
  | nil => exact ⟨s.own, rfl⟩
  | cons l ls ih =>
    unfold acquireLines
    split
    · exact ⟨_, releaseLines_eq acquired s⟩
    · obtain ⟨o, ho⟩ := ih (l :: acquired) (s.setOwn l true)
      exact ⟨o, ho⟩

/-- All that INIT can do when it answers a next state, whatever the reservations were (R201, R205). -/
theorem execInit_eq_next {s t : State} (h : execInit s = .next t) :
    s.loaded = false ∧
    ((s.side.busy = .all false ∧
        t = respondOk [] (initRegisters { s with own := .all true, cs := true, clk := false, heat := false })) ∨
     (s.side.busy ≠ .all false ∧ ∃ o, t = raiseFault .noLine { s with own := o })) := by
  unfold execInit at h
  split at h <;> rename_i hl
  · cases h
  · refine ⟨by simpa using hl, ?_⟩
    by_cases hb : s.side.busy = .all false
    · rw [acquireLines_all_ok hb] at h
      simp only [if_true] at h
      rw [driveIdleLevels_owned rfl] at h
      cases h; exact .inl ⟨hb, rfl⟩
    · refine .inr ⟨hb, ?_⟩
      obtain ⟨o, ho⟩ := acquireLines_own acquireOrder [] s
      have hf : (acquireLines [] acquireOrder s).1 = false := by
        obtain ⟨⟨cs, clk, data, heat⟩, hbusy⟩ : ∃ b, s.side.busy = b := ⟨_, rfl⟩
        cases cs <;> cases clk <;> cases data <;> cases heat <;>
          first
          | exact absurd hbusy hb
          | simp [acquireLines, acquireOrder, hbusy, State.setOwn]
      cases hq : acquireLines [] acquireOrder s with
      | mk b u =>
        rw [hq] at h hf ho
        simp only at hf ho
        subst hf ho
        cases h; exact ⟨o, rfl⟩

theorem execStop_eq_next {s t : State} :
    execStop s = .next t ↔ s.loaded = true ∧ t = respondOk [] { s with stopflag := true } := by
  simp only [execStop, whenLoaded_eq_next, next_eq_next]

theorem execKill_eq_next {s t : State} :
    execKill s = .next t ↔ s.loaded = true ∧ t = respondOk [] { s with kill := true } := by
  simp only [execKill, whenLoaded_eq_next, next_eq_next]

theorem execShutdown_eq_next {s t : State} :
    execShutdown s = .next t ↔ s.loaded = true ∧
      ((s.shutdownRequested = true ∧ s.wdph = .term ∧
          t = respondOk [] { s with own := .all false, wdph := .off, loaded := false, shutdownRequested := false }) ∨
       (¬(s.shutdownRequested = true ∧ s.wdph = .term) ∧
          t = noResponse { s with stopflag := true, shutdownRequested := true })) := by
  rw [execShutdown, whenLoaded_eq_next]
  refine and_congr_right fun hl => ?_
  by_cases hj : s.shutdownRequested = true ∧ s.wdph = .term
  · have hb : shutdownJoined s = true := by simp [shutdownJoined, hl, hj]
    simp only [hb, if_true, shutdownComplete, releaseLines_all, next_eq_next, hj, true_and, not_true_eq_false,
      false_and, or_false, and_self]
  · have hb : shutdownJoined s = false := by simpa [shutdownJoined, hl] using hj
    simp only [hb, Bool.false_eq_true, if_false, shutdownRequest, next_eq_next, ← and_assoc, hj, false_and, false_or,
      not_false_eq_true, true_and]

/-! The instructions by what they do. -/

/-- The host commands: the instructions of the control path. -/
def isHostCommand : Instr → Bool
  | .badchan _ _ _ => true
  | .openTemp _ => true
  | .openStatus _ => true
  | .readTemp _ => true
  | .readStatus _ => true
  | .writeTemp _ => true
  | .writeStatusOn => true
  | .writeStatusOff _ => true
  | .releaseTemp _ => true
  | .releaseStatus _ => true
  | .requestOn _ => false
  | .requestOff _ => false
  | .forceOff _ => false
  | .updateTemperature _ => false
  | .sample _ => false
  | .wdCycle => false
  | .init => false
  | .stop => false
  | .kill => false
  | .shutdown => false

/-- The instructions that ask for the heater On. -/
def asksOn (i : Instr) : Prop := i = .writeStatusOn ∨ ∃ k, i = .requestOn k

/-- The instructions that turn the heater Off and do nothing else to it. -/
def turnsOff (i : Instr) : Prop :=
  (∃ b, i = .writeStatusOff b) ∨ (∃ b, i = .releaseStatus b) ∨ (∃ k, i = .requestOff k) ∨ ∃ k, i = .forceOff k

/-- A request for On, with its answer (R121). -/
theorem requestOn_answered {s u t : State} (hu : requestOn s = .next u)
    (ht : t = respond ⟨requestOnStatus s, .none, []⟩ u) :
    s.own.heat = true ∧
    ((s.params.softLimit < s.temp.toNat ∧
        t = { s with heating := false, heat := false, events := s.events ++ [.refused],
                     response := some ⟨.refused, .none, []⟩ }) ∨
     (s.temp.toNat ≤ s.params.softLimit ∧
        t = { s with heating := true, heat := true, events := s.events ++ [.turnedOn],
                     response := some ⟨.ok, .none, []⟩ })) := by
  obtain ⟨ho, hu⟩ := requestOn_eq_next.1 hu
  refine ⟨ho, ?_⟩
  by_cases hb : s.params.softLimit < s.temp.toNat
  · have hc : aboveSoftLimit s = true := decide_eq_true hb
    rw [if_pos hc] at hu
    rw [hu, requestOnStatus, if_pos hc] at ht
    exact .inl ⟨hb, ht⟩
  · have hc : ¬ aboveSoftLimit s = true := by simpa [aboveSoftLimit] using hb
    rw [if_neg hc] at hu
    rw [hu, requestOnStatus, if_neg hc] at ht
    exact .inr ⟨Nat.le_of_not_lt hb, ht⟩

/-- All that an instruction can do when it answers a next state. -/
theorem exec_cases {i : Instr} {s t : State} (h : exec i s = .next t) :
    (s.loaded = true ∧ isHostCommand i = true ∧
      ∃ r, t = respond r s ∧ (r.status = .fault → r.code ≠ .none ∧ r.data = [])) ∨
    (s.loaded = true ∧ s.own.heat = true ∧ asksOn i ∧ s.params.softLimit < s.temp.toNat ∧
      t = { s with heating := false, heat := false, events := s.events ++ [.refused],
                   response := some ⟨.refused, .none, []⟩ }) ∨
    (s.loaded = true ∧ s.own.heat = true ∧ asksOn i ∧ s.temp.toNat ≤ s.params.softLimit ∧
      t = { s with heating := true, heat := true, events := s.events ++ [.turnedOn],
                   response := some ⟨.ok, .none, []⟩ }) ∨
    (s.loaded = true ∧ s.own.heat = true ∧ turnsOff i ∧ ∃ r, (r = none ∨ r = some okResponse) ∧
      t = { s with heating := false, heat := false, events := s.events ++ [.turnedOff], response := r }) ∨
    (s.loaded = true ∧ ∃ k, i = .updateTemperature k ∧ t = { s with temp := k, response := none }) ∨
    (s.loaded = true ∧ ∃ f, i = .sample f ∧ execSample f s = .next t) ∨
    (s.loaded = true ∧ i = .wdCycle ∧ watchdogStep (noResponse s) = .next t) ∨
    (s.loaded = false ∧ i = .init ∧ s.side.busy = .all false ∧
      t = respondOk [] (initRegisters { s with own := .all true, cs := true, clk := false, heat := false })) ∨
    (s.loaded = false ∧ i = .init ∧ s.side.busy ≠ .all false ∧
      ∃ o, t = raiseFault .noLine { s with own := o }) ∨
    (s.loaded = true ∧ i = .stop ∧ t = respondOk [] { s with stopflag := true }) ∨
    (s.loaded = true ∧ i = .kill ∧ t = respondOk [] { s with kill := true }) ∨
    (s.loaded = true ∧ i = .shutdown ∧ s.shutdownRequested = true ∧ s.wdph = .term ∧
      t = respondOk [] { s with own := .all false, wdph := .off, loaded := false, shutdownRequested := false }) ∨
    (s.loaded = true ∧ i = .shutdown ∧ ¬(s.shutdownRequested = true ∧ s.wdph = .term) ∧
      t = noResponse { s with stopflag := true, shutdownRequested := true }) := by
  have fault : ∀ c : FaultCode, c ≠ .none → (⟨.fault, c, []⟩ : Response).status = .fault →
      (⟨.fault, c, []⟩ : Response).code ≠ .none ∧ (⟨.fault, c, []⟩ : Response).data = [] :=
    fun c hc _ => ⟨hc, rfl⟩
  cases i with
  | badchan op chan byte =>
    obtain ⟨hl, ht⟩ := (execBadchan_eq_next (op := op) (chan := chan) (byte := byte)).1 h
    exact .inl ⟨hl, rfl, _, ht, fault _ (by decide)⟩
  | openTemp byte =>
    obtain ⟨hl, ht⟩ := (execOpenTemp_eq_next (byte := byte)).1 h
    exact .inl ⟨hl, rfl, _, ht, by simp⟩
  | openStatus byte =>
    obtain ⟨hl, ht⟩ := (execOpenStatus_eq_next (byte := byte)).1 h
    exact .inl ⟨hl, rfl, _, ht, by simp⟩
  | readTemp byte =>
    obtain ⟨hl, ⟨-, ht⟩ | ⟨-, ht⟩⟩ := (execReadTemp_eq_next (byte := byte)).1 h
    · exact .inl ⟨hl, rfl, _, ht, fault _ (by decide)⟩
    · exact .inl ⟨hl, rfl, _, ht, by simp⟩
  | readStatus byte =>
    obtain ⟨hl, ⟨-, ht⟩ | ⟨-, ht⟩⟩ := (execReadStatus_eq_next (byte := byte)).1 h
    · exact .inl ⟨hl, rfl, _, ht, fault _ (by decide)⟩
    · exact .inl ⟨hl, rfl, _, ht, by simp⟩
  | writeTemp byte =>
    obtain ⟨hl, ⟨-, ht⟩ | ⟨-, ht⟩⟩ := (execWriteTemp_eq_next (byte := byte)).1 h
    · exact .inl ⟨hl, rfl, _, ht, fault _ (by decide)⟩
    · exact .inl ⟨hl, rfl, _, ht, by simp⟩
  | writeStatusOn =>
    obtain ⟨hl, ⟨-, ht⟩ | ⟨-, u, hu, ht⟩⟩ := execWriteStatusOn_eq_next.1 h
    · exact .inl ⟨hl, rfl, _, ht, fault _ (by decide)⟩
    · obtain ⟨ho, ⟨hb, ht⟩ | ⟨hb, ht⟩⟩ := requestOn_answered hu ht
      · exact .inr (.inl ⟨hl, ho, .inl rfl, hb, ht⟩)
      · exact .inr (.inr (.inl ⟨hl, ho, .inl rfl, hb, ht⟩))
  | writeStatusOff byte =>
    obtain ⟨hl, ⟨-, ht⟩ | ⟨-, u, hu, ht⟩⟩ := (execWriteStatusOff_eq_next (byte := byte)).1 h
    · exact .inl ⟨hl, rfl, _, ht, fault _ (by decide)⟩
    · obtain ⟨ho, rfl⟩ := setHeater_eq_next.1 hu
      exact .inr (.inr (.inr (.inl ⟨hl, ho, .inl ⟨byte, rfl⟩, _, .inr rfl, ht⟩)))
  | releaseTemp byte =>
    obtain ⟨hl, ht⟩ := (execReleaseTemp_eq_next (byte := byte)).1 h
    exact .inl ⟨hl, rfl, _, ht, by simp⟩
  | releaseStatus byte =>
    obtain ⟨hl, u, hu, ht⟩ := (execReleaseStatus_eq_next (byte := byte)).1 h
    obtain ⟨ho, rfl⟩ := setHeater_eq_next.1 hu
    exact .inr (.inr (.inr (.inl ⟨hl, ho, .inr (.inl ⟨byte, rfl⟩), _, .inr rfl, ht⟩)))
  | requestOn ticks =>
    obtain ⟨hl, u, hu, ht⟩ := (execRequestOn_eq_next (ticks := ticks)).1 h
    obtain ⟨ho, ⟨hb, ht⟩ | ⟨hb, ht⟩⟩ := requestOn_answered hu ht
    · exact .inr (.inl ⟨hl, ho, .inr ⟨ticks, rfl⟩, hb, ht⟩)
    · exact .inr (.inr (.inl ⟨hl, ho, .inr ⟨ticks, rfl⟩, hb, ht⟩))
  | requestOff ticks =>
    obtain ⟨hl, u, hu, ht⟩ := (execRequestOff_eq_next (ticks := ticks)).1 h
    obtain ⟨ho, rfl⟩ := setHeater_eq_next.1 hu
    exact .inr (.inr (.inr (.inl ⟨hl, ho, .inr (.inr (.inl ⟨ticks, rfl⟩)), _, .inr rfl, ht⟩)))
  | forceOff ticks =>
    obtain ⟨hl, u, hu, ht⟩ := (execForceOff_eq_next (ticks := ticks)).1 h
    obtain ⟨ho, rfl⟩ := setHeater_eq_next.1 hu
    exact .inr (.inr (.inr (.inl ⟨hl, ho, .inr (.inr (.inr ⟨ticks, rfl⟩)), _, .inl rfl, ht⟩)))
  | updateTemperature ticks =>
    obtain ⟨hl, ht⟩ := (execUpdateTemperature_eq_next (ticks := ticks)).1 h
    exact .inr (.inr (.inr (.inr (.inl ⟨hl, ticks, rfl, ht⟩))))
  | sample frame =>
    exact .inr (.inr (.inr (.inr (.inr (.inl ⟨(execSample_frame h).1, frame, rfl, h⟩)))))
  | wdCycle =>
    obtain ⟨hl, hw⟩ := execWdCycle_eq_next.1 h
    exact .inr (.inr (.inr (.inr (.inr (.inr (.inl ⟨hl, rfl, hw⟩))))))
  | init =>
    obtain ⟨hl, ⟨hb, ht⟩ | ⟨hb, ht⟩⟩ := execInit_eq_next h
    · exact .inr (.inr (.inr (.inr (.inr (.inr (.inr (.inl ⟨hl, rfl, hb, ht⟩)))))))
    · exact .inr (.inr (.inr (.inr (.inr (.inr (.inr (.inr (.inl ⟨hl, rfl, hb, ht⟩))))))))
  | stop =>
    obtain ⟨hl, ht⟩ := execStop_eq_next.1 h
    exact .inr (.inr (.inr (.inr (.inr (.inr (.inr (.inr (.inr (.inl ⟨hl, rfl, ht⟩)))))))))
  | kill =>
    obtain ⟨hl, ht⟩ := execKill_eq_next.1 h
    exact .inr (.inr (.inr (.inr (.inr (.inr (.inr (.inr (.inr (.inr (.inl ⟨hl, rfl, ht⟩))))))))))
  | shutdown =>
    obtain ⟨hl, ⟨h1, h2, ht⟩ | ⟨h1, ht⟩⟩ := execShutdown_eq_next.1 h
    · exact .inr (.inr (.inr (.inr (.inr (.inr (.inr (.inr (.inr (.inr (.inr (.inl ⟨hl, rfl, h1, h2, ht⟩)))))))))))
    · exact .inr (.inr (.inr (.inr (.inr (.inr (.inr (.inr (.inr (.inr (.inr (.inr ⟨hl, rfl, h1, ht⟩)))))))))))

end Sys2Proof.Machine
end

