-- ==== Sys2Proof/Laws/SensorLink.lean ====
section
/-! SUPPORT. What the serial engine does over one bit and over one frame: the loop of R80 packaged once. -/

namespace Sys2Proof.Machine

open Sys2Proof

/-! Shifting the levels of a frame in, bit 15 first, gives the frame (R15, R44, R88). -/

theorem getLsbD_shiftIn_zero (a : Frame) (b : Level) : (shiftIn a b).getLsbD 0 = b := by
  cases b <;> simp [shiftIn]

theorem getLsbD_shiftIn_succ (a : Frame) (b : Level) (i : Nat) (hi : i + 1 < 16) :
    (shiftIn a b).getLsbD (i + 1) = a.getLsbD i := by
  have hi' : i < 16 := by omega
  cases b <;> simp [shiftIn, hi, hi', BitVec.getLsbD_eq_getElem]

/-- Shifting in the lowest `n` bits of a frame puts them in place and the old bits above them. -/
theorem getLsbD_foldl_lowBitsFirst (f : Frame) : ∀ (n : Nat) (a : Frame) (i : Nat), i < 16 →
    ((lowBitsFirst f n).foldl shiftIn a).getLsbD i = if i < n then f.getLsbD i else a.getLsbD (i - n)
  | 0, a, i, _ => by simp [lowBitsFirst]
  | n + 1, a, i, hi => by
    rw [lowBitsFirst, List.foldl_cons, getLsbD_foldl_lowBitsFirst f n _ i hi]
    by_cases h : i < n
    · rw [if_pos h, if_pos (Nat.lt_succ_of_lt h)]
    · rw [if_neg h]
      by_cases h2 : i = n
      · subst h2; rw [Nat.sub_self, getLsbD_shiftIn_zero, if_pos (Nat.lt_succ_self i)]
      · obtain ⟨k, rfl⟩ : ∃ k, i = n + 1 + k := ⟨i - (n + 1), by omega⟩
        rw [if_neg (by omega), show n + 1 + k - n = k + 1 by omega, getLsbD_shiftIn_succ _ _ _ (by omega),
          show n + 1 + k - (n + 1) = k by omega]

/-- After the sixteen levels of a frame the shift register is the frame, whatever it was. -/
theorem foldl_frameLevels (f a : Frame) : (frameLevels f).foldl shiftIn a = f := by
  apply BitVec.eq_of_getLsbD_eq
  intro i hi
  rw [frameLevels, Config.frameBits, getLsbD_foldl_lowBitsFirst f 16 a i hi, if_pos hi]

theorem frameLevels_length (f : Frame) : (frameLevels f).length = 16 := by
  simp [frameLevels, Config.frameBits, lowBitsFirst]

/-- The reading of a frame is its bits 14 to 3 (R62). -/
theorem readingOf_eq (f : Frame) : readingOf f = f.extractLsb' 3 12 := by
  apply BitVec.eq_of_toNat_eq
  simp [readingOf, Config.dropBits, BitVec.extractLsb'_toNat]

/-- One bit: rise, hold, sample, fall, hold (R82 to R86). -/
theorem slMicroSteps_bit {s : State} {b : Level} {rest : List Level} (hp : s.slph = .rise)
    (hc : s.own.clk = true) (hd : s.own.data = true) (hs : s.sensor = b :: rest) :
    ∃ d n, 2 * s.params.tHalfMin ≤ d ∧ slMicroSteps 5 s = .next { s with
      clk := false, sr := shiftIn s.sr b, bitcnt := s.bitcnt + 1, sensor := rest, now := s.now + d, fresh := n,
      slph := if s.bitcnt + 1 = 16 then .deselect else .rise } := by
  refine ⟨(s.params.tHalfMin + Config.anyExcess s.fresh) + (s.params.tHalfMin + Config.anyExcess (s.fresh + 1)),
    s.fresh + 2, by omega, ?_⟩
  simp only [slMicroSteps, slMicroStep, hp, slRise, lineWrite, OutputLine.line, LineBits.get, hc, if_true, andThen,
    State.driveLatch, slHoldHi, hold, slSample, lineRead, hd, State.dataLevel, State.dataTaken, hs, List.headD, slFall,
    slHoldLo, frameComplete, Config.frameBits, Nat.add_assoc]
  simp

/-- The bits of a frame from the first to the last that are still to come: the loop of R80. -/
theorem slMicroSteps_bits : ∀ (bits : List Level) (s : State) (rest : List Level), s.slph = .rise →
    s.own.clk = true → s.own.data = true → s.sensor = bits ++ rest → s.bitcnt.toNat + bits.length = 16 →
    bits ≠ [] →
    ∃ d n, 2 * bits.length * s.params.tHalfMin ≤ d ∧ slMicroSteps (5 * bits.length) s = .next { s with
      clk := false, sr := bits.foldl shiftIn s.sr, bitcnt := 16, sensor := rest, now := s.now + d, fresh := n,
      slph := .deselect }
  | [], _, _, _, _, _, _, _, h => absurd rfl h
  | b :: bits, s, rest, hp, hc, hd, hs, hl, _ => by
    obtain ⟨d, n, hd1, h1⟩ := slMicroSteps_bit hp hc hd hs
    rw [show 5 * (b :: bits).length = 5 + 5 * bits.length by simp; ring, slMicroSteps_add, h1, andThen_next]
    simp only [List.length_cons] at hl
    by_cases hb : bits = []
    · subst hb
      have e : s.bitcnt + 1 = 16 := by
        apply BitVec.eq_of_toNat_eq; simp at hl ⊢; omega
      refine ⟨d, n, by simpa using hd1, ?_⟩
      rw [if_pos e, e]; rfl
    · have hlen : 0 < bits.length := List.length_pos_iff.2 hb
      have hbc : (s.bitcnt + 1).toNat = s.bitcnt.toNat + 1 := by
        rw [BitVec.toNat_add]; simp; omega
      have e : ¬ s.bitcnt + 1 = 16 := by
        intro h; rw [h] at hbc; simp at hbc; omega
      obtain ⟨d2, n2, hd2, h2⟩ := slMicroSteps_bits bits
        { s with clk := false, sr := shiftIn s.sr b, bitcnt := s.bitcnt + 1, sensor := bits ++ rest,
                 now := s.now + d, fresh := n, slph := .rise }
        rest rfl hc hd rfl (by simp only; omega) hb
      refine ⟨d + d2, n2, ?_, ?_⟩
      · simp only [List.length_cons] at hd2 ⊢; ring_nf at hd1 hd2 ⊢; omega
      · rw [if_neg e]
        refine h2.trans ?_
        simp [Nat.add_assoc]

/-- One whole sample: all its micro-steps from SL_SELECT, the sensor presenting a frame (R88). -/
theorem slMicroSteps_sample (f : Frame) (rest : List Level) (s : State) (hs : s.slph = .select)
    (h1 : s.own.cs = true) (h2 : s.own.clk = true) (h3 : s.own.data = true)
    (hsen : s.sensor = frameLevels f ++ rest) :
    ∃ d n, 32 * s.params.tHalfMin ≤ d ∧ slMicroSteps sampleMicroSteps s = .next { s with
      cs := true, clk := false, sr := f, bitcnt := 16, result := readingOf f, slph := .idle, sensor := rest,
      now := s.now + d, fresh := n } := by
  have hlen := frameLevels_length f
  rw [show sampleMicroSteps = 1 + (5 * (frameLevels f).length + 1) by rw [hlen]; rfl, slMicroSteps_add]
  have hsel : slMicroSteps 1 s = .next { s with cs := false, sr := 0, bitcnt := 0, slph := .rise } := by
    simp [slMicroSteps, slMicroStep, hs, slSelect, lineWrite, h1, State.driveLatch]
  rw [hsel, andThen_next, slMicroSteps_add]
  obtain ⟨d, n, hd, h⟩ := slMicroSteps_bits (frameLevels f)
    { s with cs := false, sr := 0, bitcnt := 0, slph := .rise } rest rfl h2 h3 hsen
    (by rw [hlen]; rfl) (by intro h; rw [h] at hlen; cases hlen)
  rw [h, andThen_next, foldl_frameLevels]
  refine ⟨d, n, by rw [hlen] at hd; simpa using hd, ?_⟩
  simp [slMicroSteps, slMicroStep, slDeselect, lineWrite, h1, State.driveLatch]

/-- A sample of a block that does not own all the sensor's lines faults within its first four micro-steps (R222). -/
theorem slMicroSteps_unowned (n : Nat) (s : State) (hs : s.slph = .select)
    (h : ¬(s.own.cs = true ∧ s.own.clk = true ∧ s.own.data = true)) :
    ∃ l, slMicroSteps (n + 4) s = .fault (.lineNotOwned l) := by
  by_cases h1 : s.own.cs = true
  · by_cases h2 : s.own.clk = true
    · have h3 : ¬ s.own.data = true := fun h3 => h ⟨h1, h2, h3⟩
      exact ⟨.data, by
        simp [slMicroSteps_succ, slMicroStep, hs, slSelect, h1, h2, h3, slRise, slHoldHi, slSample, lineWrite, lineRead,
          State.driveLatch, hold]⟩
    · exact ⟨.clk, by
        simp [slMicroSteps_succ, slMicroStep, hs, slSelect, h1, h2, slRise, lineWrite, State.driveLatch]⟩
  · exact ⟨.cs, by simp [slMicroSteps_succ, slMicroStep, hs, slSelect, h1, lineWrite]⟩

/-- SAMPLE where the watchdog has started it is its micro-steps, the sensor presenting the frame (R80). -/
theorem execSample_started (f : Frame) {s : State} (hl : s.loaded = true) (hw : s.wdph = .sample)
    (hs : s.slph = .select) :
    execSample f s = slMicroSteps sampleMicroSteps (noResponse { s with sensor := frameLevels f ++ s.sensor }) := by
  have hst : sampleStarted s = true := by simp [sampleStarted, hw, hs]
  rw [execSample, whenLoaded_loaded _ hl, if_pos hst]

end Sys2Proof.Machine
end

