-- ==== Sys2Proof/Laws/Run.lean ====
section
/-! SUPPORT. Runs of several steps: how they unfold, and what the undisturbed watchdog does inside a sample. -/

namespace Sys2Proof.Machine

open Sys2Proof

@[simp] theorem run_zero (s : State) : run 0 s = .next s := rfl

/-- A run is its first step and the rest. -/
theorem run_succ (n : Nat) (s : State) : run (n + 1) s = andThen (step s) (run n) := rfl

/-- Runs join. -/
theorem run_add (m n : Nat) (s : State) : run (m + n) s = andThen (run m s) (run n) := by
  induction m generalizing s with
  | zero => rw [Nat.zero_add, run_zero, andThen_next]
  | succ m ih =>
    rw [Nat.succ_add, run_succ, run_succ, andThen_assoc]
    congr 1; funext u; exact ih u

/-- The host's run of any machine, one step at a time. -/
theorem core_run_next (M : Host.Core) (n : Nat) (s t : M.State) (h : M.step s = .next t) :
    M.run (n + 1) s = M.run n t := by
  simp only [Host.Core.run, h]

theorem core_run_fault (M : Host.Core) (n : Nat) (s : M.State) (r : M.Fault) (h : M.step s = .fault r) :
    M.run (n + 1) s = .fault r := by
  simp only [Host.Core.run, h]

theorem core_run_refused (M : Host.Core) (n : Nat) (s : M.State) (r : M.Refusal) (h : M.step s = .refused r) :
    M.run (n + 1) s = .refused r := by
  simp only [Host.Core.run, h]

/-- A run is the host's run of the machine. -/
theorem run_eq_core_run (n : Nat) (s : State) : run n s = Host.Core.run core n s := by
  induction n generalizing s with
  | zero => rfl
  | succ n ih =>
    rw [run_succ]
    cases h : step s with
    | next t => exact (ih t).trans (core_run_next core n s t h).symm
    | fault r => exact (core_run_fault core n s r h).symm
    | refused r => exact (core_run_refused core n s r h).symm

/-- With no turn listed a running watchdog takes its own step. -/
theorem step_watchdog {s : State} (hin : s.inbox = []) (hl : s.loaded = true) (h1 : s.wdph ≠ .off)
    (h2 : s.wdph ≠ .term) : step s = watchdogStep (noResponse s) := by
  have hw : watchdogEnabled s = true := by simp [watchdogEnabled, hl, h1, h2]
  rw [step_own hin, ownStep, if_pos hw]
  simp [exec, execWdCycle, whenLoaded, hl]

/-! One step of the undisturbed watchdog in each phase. -/

theorem step_top {s : State} (hin : s.inbox = []) (hl : s.loaded = true) (hw : s.wdph = .top) :
    step s = .next { s with wdph := if stopRequested s then .term else .arm, response := none } := by
  rw [step_watchdog hin hl (by simp [hw]) (by simp [hw]), watchdogStep]
  simp only [noResponse_wdph, hw]; rfl

theorem step_arm {s : State} (hin : s.inbox = []) (hl : s.loaded = true) (hw : s.wdph = .arm) :
    step s = .next { s with
      deadline := s.now + s.params.period, slph := .select, wdph := .sample, response := none } := by
  rw [step_watchdog hin hl (by simp [hw]) (by simp [hw]), watchdogStep]
  simp only [noResponse_wdph, hw]; rfl

theorem step_sample_busy {s : State} (hin : s.inbox = []) (hl : s.loaded = true) (hw : s.wdph = .sample)
    (hs : s.slph ≠ .idle) : step s = slMicroStep (noResponse s) := by
  rw [step_watchdog hin hl (by simp [hw]) (by simp [hw]), watchdogStep]
  simp only [noResponse_wdph, hw, wdSample]; exact if_neg hs

theorem step_sample_done {s : State} (hin : s.inbox = []) (hl : s.loaded = true) (hw : s.wdph = .sample)
    (hs : s.slph = .idle) : step s = .next { s with wdph := .publish, response := none } := by
  rw [step_watchdog hin hl (by simp [hw]) (by simp [hw]), watchdogStep]
  simp only [noResponse_wdph, hw, wdSample]; exact if_pos hs

theorem step_publish {s : State} (hin : s.inbox = []) (hl : s.loaded = true) (hw : s.wdph = .publish) :
    step s = wdPublish (noResponse s) := by
  rw [step_watchdog hin hl (by simp [hw]) (by simp [hw]), watchdogStep]
  simp only [noResponse_wdph, hw]

theorem step_idle {s : State} (hin : s.inbox = []) (hl : s.loaded = true) (hw : s.wdph = .idle) :
    step s = wdIdle (noResponse s) := by
  rw [step_watchdog hin hl (by simp [hw]) (by simp [hw]), watchdogStep]
  simp only [noResponse_wdph, hw]

/-- A micro-step leaves alone everything that keeps the watchdog sampling undisturbed. -/
theorem slMicroStep_keeps {s t : State} (h : slMicroStep s = .next t) :
    t.inbox = s.inbox ∧ t.loaded = s.loaded ∧ t.wdph = s.wdph ∧ t.response = s.response ∧ t.own = s.own ∧
    t.params = s.params ∧ t.heating = s.heating ∧ t.heat = s.heat ∧ t.temp = s.temp ∧ t.stopflag = s.stopflag ∧
    t.kill = s.kill ∧ t.deadline = s.deadline ∧ t.events = s.events ∧ t.side = s.side := by
  rcases slMicroStep_cases h with ⟨-, -, rfl⟩ | ⟨-, -, rfl⟩ | ⟨-, rfl⟩ | ⟨-, -, rfl⟩ | ⟨-, -, rfl⟩ | ⟨-, rfl⟩ |
    ⟨-, -, rfl⟩ <;> simp

/-- Inside a sample the steps of the undisturbed watchdog are the micro-steps, as long as the engine does not come to
rest on the way. -/
theorem run_sampling (n : Nat) (s : State) (hin : s.inbox = []) (hl : s.loaded = true) (hw : s.wdph = .sample)
    (hr : s.response = none) (hbusy : slMicroSteps n s ≠ .refused .serialEngineIdle) :
    run n s = slMicroSteps n s := by
  induction n generalizing s with
  | zero => rfl
  | succ n ih =>
    have hne : s.slph ≠ .idle := by
      intro hi
      exact hbusy (by rw [slMicroSteps_succ]; simp [slMicroStep, hi])
    have hnr : noResponse s = s := by rw [noResponse, ← hr]
    have hstep : step s = slMicroStep s := by
      rw [step_watchdog hin hl (by simp [hw]) (by simp [hw]), hnr]
      simp [watchdogStep, hw, wdSample, hne]
    rw [run_succ, hstep, slMicroSteps_succ]
    cases hm : slMicroStep s with
    | next t =>
      obtain ⟨h1, h2, h3, h4, -⟩ := slMicroStep_keeps hm
      rw [andThen_next, andThen_next]
      refine ih t (by rw [h1, hin]) (by rw [h2, hl]) (by rw [h3, hw]) (by rw [h4, hr]) ?_
      intro hbad
      exact hbusy (by rw [slMicroSteps_succ, hm, andThen_next, hbad])
    | fault r => rfl
    | refused r => rfl

/-- After a sample the undisturbed watchdog publishes its reading and, above the hard limit, cuts the heater, in two
steps (R103, R104). -/
theorem run_publishes (s : State) (hin : s.inbox = []) (hl : s.loaded = true) (ho : s.own.heat = true)
    (hw : s.wdph = .sample) (hi : s.slph = .idle) :
    run 2 s = .next (if breach s s.result
      then { s with temp := s.result, heating := false, heat := false, wdph := .idle,
                    events := s.events ++ [.turnedOff] ++ [.overTemp], response := none }
      else { s with temp := s.result, wdph := .idle, response := none }) := by
  rw [run_succ, step_sample_done hin hl hw hi, andThen_next, run_succ, step_publish (by exact hin) (by exact hl) rfl]
  generalize hu : noResponse { s with wdph := .publish, response := none } = u
  have hr : u.result = s.result := by rw [← hu]; rfl
  have hbu : breach u u.result = breach s s.result := by rw [← hu]; rfl
  cases hb : breach s s.result
  · rw [wdPublish_eq_next.2 (.inr ⟨hbu.trans hb, rfl⟩), ← hu]
    rfl
  · rw [wdPublish_eq_next.2 (.inl ⟨hbu.trans hb, by rw [← hu]; exact ho, rfl⟩), ← hu]
    rfl

end Sys2Proof.Machine
end

