-- ==== Sys2Proof/Tests/Slice0.lean ====
section
/-! SUPPORT. The model's own tests. Expected values come from spec/95_test_vectors.md (V-… and P…) and from
R76; each comment names the vector. -/

namespace Sys2Proof.Tests

open Sys2Proof Sys2Proof.Machine

/-- The outcome is a next state of which `p` holds. -/
def next (o : Result) (p : State → Bool) : Bool :=
  match o with
  | .next s => p s
  | .fault _ => false
  | .refused _ => false

/-- The outcome is a refusal for the reason `r`. -/
def refuses (o : Result) (r : Refusal) : Bool :=
  match o with
  | .next _ => false
  | .fault _ => false
  | .refused q => q == r

/-- The outcome is a fault for the reason `f`. -/
def faults (o : Result) (f : Fault) : Bool :=
  match o with
  | .next _ => false
  | .fault g => g == f
  | .refused _ => false

/-- A running block with this reading, heater Off. -/
def off (t : Ticks) : State := { State.reset with temp := t }

/-- A running block with this reading, heater On. -/
def on (t : Ticks) : State := { State.reset with temp := t, heating := true, heat := true }

/-- The same block with a transfer fault presented. -/
def badTransfer (s : State) : State := { s with side := ⟨true, .all false⟩ }

/-- An unloaded block. -/
def unloadedBlock : State := { State.reset with loaded := false, wdph := .off, own := .all false, response := none }

/-- A block whose watchdog is in this phase. -/
def inPhase (p : WdPhase) (s : State) : State := { s with wdph := p }

/-- A block whose serial engine is in this phase of a sample. -/
def sampling (p : SlPhase) (s : State) : State := { s with wdph := .sample, slph := p }

/-- A block whose SHUTDOWN waits for the join. -/
def awaiting (s : State) : State := { s with stopflag := true, shutdownRequested := true }

/-- A block about to publish this reading. -/
def publishing (r : Ticks) (s : State) : State := { s with wdph := .publish, result := r }

/-! Well-formedness: each check refuses an ill-formed term. -/

theorem test_wellFormed_badchan_refuses_channel : (Instr.badchan 1 1 0).wellFormed = false := by decide
theorem test_wellFormed_badchan_accepts : (Instr.badchan 1 2 0).wellFormed = true := by decide
theorem test_wellFormed_writeStatusOff_refuses_one : (Instr.writeStatusOff 0x31).wellFormed = false := by decide
theorem test_wellFormed_writeStatusOff_accepts : (Instr.writeStatusOff 0x30).wellFormed = true := by decide

/-! Decoding: every constructor's word, written out from R63, R71, R72, R61 and the vectors of 2.5. -/

/-- V-CS-20, R76: `0b01_10_00000000`. -/
theorem test_decode_badchan : decode ⟨.cmd, 0b011000000000⟩ = .instr (.badchan 1 2 0) := by decide
/-- V-CS-21: WRITE '1' on channel 3. -/
theorem test_decode_badchan_write : decode ⟨.cmd, 0xB31⟩ = .instr (.badchan 2 3 0x31) := by decide
theorem test_decode_openTemp : decode ⟨.cmd, 0b000000000000⟩ = .instr (.openTemp 0) := by decide
/-- V-CS-2. -/
theorem test_decode_openStatus : decode ⟨.cmd, 0x1A7⟩ = .instr (.openStatus 0xA7) := by decide
theorem test_decode_readTemp : decode ⟨.cmd, 0b010000000000⟩ = .instr (.readTemp 0) := by decide
theorem test_decode_readStatus : decode ⟨.cmd, 0b010100000000⟩ = .instr (.readStatus 0) := by decide
/-- V-CS-7. -/
theorem test_decode_writeTemp : decode ⟨.cmd, 0b100000111001⟩ = .instr (.writeTemp 0x39) := by decide
/-- R74: `0b10_01_00110001`. -/
theorem test_decode_writeStatusOn : decode ⟨.cmd, 0b100100110001⟩ = .instr .writeStatusOn := by decide
theorem test_decode_writeStatusOff : decode ⟨.cmd, 0b100100110000⟩ = .instr (.writeStatusOff 0x30) := by decide
theorem test_decode_releaseTemp : decode ⟨.cmd, 0b110000000000⟩ = .instr (.releaseTemp 0) := by decide
theorem test_decode_releaseStatus : decode ⟨.cmd, 0b110100000000⟩ = .instr (.releaseStatus 0) := by decide
theorem test_decode_requestOn : decode ⟨.ireq, 0b00000000000101⟩ = .instr (.requestOn 5) := by decide
theorem test_decode_requestOff : decode ⟨.ireq, 0b01000000000000⟩ = .instr (.requestOff 0) := by decide
theorem test_decode_forceOff : decode ⟨.ireq, 0b10000000000000⟩ = .instr (.forceOff 0) := by decide
theorem test_decode_updateTemperature :
    decode ⟨.ireq, 0b11101010001100⟩ = .instr (.updateTemperature 2700) := by decide
theorem test_decode_sample : decode ⟨.frame, 0xBE87⟩ = .instr (.sample 0xBE87) := by decide
theorem test_decode_wdCycle : decode ⟨.sequencer, 0⟩ = .instr .wdCycle := by decide
theorem test_decode_init : decode ⟨.life, 0b00⟩ = .instr .init := by decide
theorem test_decode_stop : decode ⟨.life, 0b01⟩ = .instr .stop := by decide
theorem test_decode_kill : decode ⟨.life, 0b10⟩ = .instr .kill := by decide
theorem test_decode_shutdown : decode ⟨.life, 0b11⟩ = .instr .shutdown := by decide
theorem test_decode_rejects_wide : decode ⟨.cmd, 0x1000⟩ = .rejected .wordTooWide := by decide
theorem test_decodeTableWord_command : decodeTableWord 16 0x931 = some .writeStatusOn := by decide
theorem test_decodeTableWord_request : decodeTableWord 14 0x0000 = some (.requestOn 0) := by decide

/-! Operand forms: the readings of R88, the shift of R84, the digits of R67. -/

theorem test_readingOf_highest : readingOf 0x7FF8 = 4095 := by decide
theorem test_readingOf_ignores_bit15_and_low3 : readingOf 0x8007 = 0 := by decide
/-- R84's example. -/
theorem test_shiftIn_example : shiftIn 0x001F false = 0x003E := by decide
theorem test_frameLevels_order :
    frameLevels 0x8001 = [true] ++ List.replicate 14 false ++ [true] := by decide
theorem test_dec_zero : dec 0 = [0x30] := by decide
theorem test_dec_largest : dec 4095 = [0x34, 0x30, 0x39, 0x35] := by decide
/-- N15: the two bytes of "1" and newline are presented as '1'. -/
theorem test_presentedByte_first : presentedByte [0x31, 0x0A] = 0x31 := by decide

/-! Host commands (2.5). -/

/-- V-CS-24: a bad selector is reported before a transfer fault. -/
theorem test_badchan : next (exec (.badchan 3 3 0xFF) (badTransfer (off 2000)))
    (fun t => t == { badTransfer (off 2000) with response := some ⟨.fault, .badChan, []⟩ }) = true := by decide
/-- V-CS-1. -/
theorem test_openTemp : next (exec (.openTemp 0) (off 2000)) (fun t => t == off 2000) = true := by decide
/-- V-CS-2: `xfer_fault` is ignored. -/
theorem test_openStatus : next (exec (.openStatus 0xA7) (badTransfer (off 2000)))
    (fun t => t.response == some okResponse) = true := by decide
/-- V-CS-3. -/
theorem test_readTemp : next (exec (.readTemp 0) (off 2000))
    (fun t => t.response == some ⟨.ok, .none, [0x32, 0x30, 0x30, 0x30, 0x0A]⟩) = true := by decide
/-- V-CS-6. -/
theorem test_readTemp_fault : next (exec (.readTemp 0) (badTransfer (off 2000)))
    (fun t => t.response == some ⟨.fault, .xfer, []⟩) = true := by decide
/-- V-CS-5. -/
theorem test_readStatus : next (exec (.readStatus 0) (on 2000))
    (fun t => t.response == some ⟨.ok, .none, [0x31, 0x0A]⟩) = true := by decide
/-- V-CS-7. -/
theorem test_writeTemp : next (exec (.writeTemp 0x39) (off 2000)) (fun t => t == off 2000) = true := by decide
/-- V-CS-26. -/
theorem test_writeTemp_fault : next (exec (.writeTemp 0x39) (badTransfer (off 2000)))
    (fun t => t.response == some ⟨.fault, .xfer, []⟩) = true := by decide
/-- V-CS-9, and V-IL-4 for the heater On. -/
theorem test_writeStatusOn_refused : next (exec .writeStatusOn (on 2200))
    (fun t => !t.heating && !t.heat && t.response == some ⟨.refused, .none, []⟩) = true := by decide
/-- V-CS-10. -/
theorem test_writeStatusOn_fault : next (exec .writeStatusOn (badTransfer (off 2000)))
    (fun t => !t.heating && t.response == some ⟨.fault, .xfer, []⟩) = true := by decide
/-- V-CS-14. -/
theorem test_writeStatusOff : next (exec (.writeStatusOff 0x32) (on 2000))
    (fun t => !t.heating && !t.heat) = true := by decide
/-- V-CS-12: the heater stays On. -/
theorem test_writeStatusOff_fault : next (exec (.writeStatusOff 0x30) (badTransfer (on 2000)))
    (fun t => t.heating && t.response == some ⟨.fault, .xfer, []⟩) = true := by decide
/-- V-CS-17, V-CS-27. -/
theorem test_releaseTemp : next (exec (.releaseTemp 0) (badTransfer (on 2000)))
    (fun t => t.heating && t.response == some okResponse) = true := by decide
/-- V-CS-19. -/
theorem test_releaseStatus : next (exec (.releaseStatus 0) (badTransfer (on 2000)))
    (fun t => !t.heating && !t.heat && t.events == [.turnedOff]) = true := by decide
/-- V-CS-25. -/
theorem test_readStatus_unloaded : refuses (exec (.readStatus 0) unloadedBlock) .unloaded = true := by decide

/-! CoilInterlock (2.4). -/

/-- V-IL-2: equal to the limit is honoured. -/
theorem test_requestOn_at_limit : next (exec (.requestOn 0) (off 2151))
    (fun t => t.heating && t.heat && t.events == [.turnedOn]) = true := by decide
/-- V-IL-3. -/
theorem test_requestOn_above_limit : next (exec (.requestOn 0) (off 2152))
    (fun t => !t.heating && t.events == [.refused] && t.response == some ⟨.refused, .none, []⟩) = true := by decide
/-- V-IL-10. -/
theorem test_requestOff : next (exec (.requestOff 0) (on 4095)) (fun t => !t.heating && !t.heat) = true := by decide
/-- V-IL-13. -/
theorem test_forceOff : next (exec (.forceOff 0) (off 0))
    (fun t => !t.heating && t.events == [.turnedOff] && t.response == none) = true := by decide
/-- V-IL-14: the operation alone does not compare. -/
theorem test_updateTemperature : next (exec (.updateTemperature 2700) (on 2000))
    (fun t => t.temp == 2700 && t.heating) = true := by decide

/-! SensorLink (2.1, 2.2). -/

/-- V-SL-15. -/
theorem test_sample_mixed : next (exec (.sample 0xA5A5) (sampling .select State.reset))
    (fun t => t.sr == 0xA5A5 && t.bitcnt == 16 && t.result == 1204 && t.cs && !t.clk && t.slph == .idle) = true := by
  decide
theorem test_sample_not_started : refuses (exec (.sample 0) State.reset) .sampleNotStarted = true := by decide
/-- 2.2, bit 6: 0x0014 becomes 0x0029. -/
theorem test_slSample : next (exec .wdCycle { sampling .sample State.reset with sr := 0x14, bitcnt := 5, sensor := [true] })
    (fun t => t.sr == 0x29 && t.bitcnt == 6 && t.slph == .fall && t.sensor == []) = true := by decide

/-! ThermalWatchdog (2.3). -/

/-- V-WD-1. -/
theorem test_publish_breach : next (exec .wdCycle (publishing 2700 (on 2000)))
    (fun t => t.temp == 2700 && !t.heating && !t.heat && t.wdph == .idle && t.events == [.turnedOff, .overTemp]) = true := by
  decide
/-- V-WD-2: equal to the limit does not trip. -/
theorem test_publish_at_limit : next (exec .wdCycle (publishing 2662 (on 2000)))
    (fun t => t.temp == 2662 && t.heating && t.heat && t.events == []) = true := by decide

/-! Lifecycle (2.6). -/

/-- V-LC-1. -/
theorem test_init : next (exec .init unloadedBlock)
    (fun t => t.loaded && t.own == .all true && t.cs && !t.clk && !t.heat && t.wdph == .top) = true := by decide
/-- V-LC-3. -/
theorem test_init_busy : next (exec .init { unloadedBlock with side := ⟨false, ⟨false, false, true, false⟩⟩ })
    (fun t => !t.loaded && t.own == .all false && t.response == some ⟨.fault, .noLine, []⟩) = true := by decide
/-- V-LC-6. -/
theorem test_stop : next (exec .stop (inPhase .idle State.reset)) (fun t => t.stopflag && t.wdph == .idle) = true := by
  decide
/-- V-LC-7. -/
theorem test_kill : next (exec .kill (sampling .rise State.reset)) (fun t => t.kill && t.slph == .rise) = true := by
  decide
/-- V-LC-9: step 2 is not enabled. -/
theorem test_shutdown_request : next (exec .shutdown (inPhase .publish State.reset))
    (fun t => t.stopflag && t.shutdownRequested && t.loaded && t.response == none) = true := by decide
/-- V-LC-8: the heater stays as it was. -/
theorem test_shutdown_complete : next (exec .shutdown (awaiting (inPhase .term (on 2662))))
    (fun t => !t.loaded && t.own == .all false && t.wdph == .off && t.heating && t.response == some okResponse) = true := by
  decide

/-! Steps of the machine. -/

theorem test_step_takes_the_turn : next (step (State.reset.withFetchWord 16 0x931))
    (fun t => t.heating && t.inbox == []) = true := by decide
/-- R201: INIT starts from an unloaded block. -/
theorem test_step_runs_init : next (step (State.reset.withFetchWord 8 0))
    (fun t => t.loaded && t.own == .all true && t.inbox == []) = true := by decide
/-- V-LC-5: INIT of a loaded block has no step, and the watchdog goes on. -/
theorem test_step_passes_over_init : next (step { State.reset with inbox := [.present ⟨.life, 0⟩ .quiet] })
    (fun t => t.wdph == .arm && t.inbox == []) = true := by decide
/-- P5, step 11: SHUTDOWN completes by itself after the join. -/
theorem test_step_completes_shutdown : next (step (awaiting (inPhase .term (on 2662))))
    (fun t => !t.loaded && t.wdph == .off && t.heating && !t.shutdownRequested && t.response == some okResponse) = true := by
  decide
/-- V-WD-8. -/
theorem test_step_runs_the_watchdog : next (step State.reset) (fun t => t.wdph == .arm) = true := by decide

/-! Witnesses: for each statement with hypotheses, states and operands that meet them together, one for each clause,
at the ends of its range. -/

/-- A block that owns none of its lines. -/
def disowned (s : State) : State := { s with own := .all false }

/-- A running block with one turn listed. -/
def listed (t : Turn) : State := { State.reset with inbox := [t] }

/-- A running block whose sensor presents this frame next. -/
def presenting (frame : Frame) (s : State) : State := { s with sensor := frameLevels frame }

theorem witness_DecodeOfEncodeIsIdentity :
    (Instr.badchan 3 2 0xFF).wellFormed = true ∧ (Instr.writeStatusOff 0x30).wellFormed = true ∧
    (Instr.updateTemperature 4095).wellFormed = true := by decide
theorem witness_EncodeOfDecodeIsIdentity :
    decode ⟨.cmd, 0xFFF⟩ = .instr (.badchan 3 3 0xFF) ∧ decode ⟨.frame, 0xFFFF⟩ = .instr (.sample 0xFFFF) := by decide
theorem witness_DecoderFollowsOpcodeTable :
    0xFFF < 2 ^ Format.cmd.width ∧ 0x3FFF < 2 ^ Format.ireq.width ∧ 0xFFFF < 2 ^ Format.frame.width ∧
    3 < 2 ^ Format.life.width ∧ 0 < 2 ^ Format.sequencer.width := by decide
theorem witness_StatusWriteDecodesByFirstByte : ∃ on off : Byte, on = 0x31 ∧ off ≠ 0x31 :=
  ⟨0x31, 0x30, by decide⟩
theorem witness_StepRunsThePresentedInstruction :
    (listed (.present ⟨.cmd, 0x931⟩ .quiet)).inbox = .present ⟨.cmd, 0x931⟩ .quiet :: [] ∧
    decode ⟨.cmd, 0x931⟩ = .instr .writeStatusOn ∧ (∃ t, exec .writeStatusOn State.reset = .next t) ∧
    decode ⟨.life, 0⟩ = .instr .init ∧ exec .init State.reset = .refused .alreadyLoaded ∧
    decode ⟨.cmd, 0x1000⟩ = .rejected .wordTooWide :=
  ⟨rfl, by decide, ⟨_, rfl⟩, by decide, rfl, by decide⟩
theorem witness_StepRunsTheWatchdogByItself :
    State.reset.inbox = [] ∧ State.reset.loaded = true ∧ State.reset.wdph ≠ .off ∧ State.reset.wdph ≠ .term ∧
    (awaiting (inPhase .term (on 0))).inbox = [] ∧ (awaiting (inPhase .term (on 0))).loaded = true ∧
    (awaiting (inPhase .term (on 0))).wdph = .term ∧ (awaiting (inPhase .term (on 0))).shutdownRequested = true := by
  decide
theorem witness_TimePassesWithoutChangingTheBlock :
    (listed (.wait 5)).inbox = .wait 5 :: [] ∧ (listed (.wait 5)).loaded = true ∧
    (inPhase .term (on 0)).inbox = [] ∧ (inPhase .term (on 0)).loaded = true ∧ (inPhase .term (on 0)).wdph = .term ∧
    (inPhase .term (on 0)).shutdownRequested = false ∧ (inPhase .off (on 0)).wdph = .off ∧
    unloadedBlock.inbox = [] ∧ unloadedBlock.loaded = false ∧
    ({ unloadedBlock with inbox := [.wait 0] }).inbox = .wait 0 :: [] := by decide
theorem witness_BadChannelFaultsWithoutStateChange :
    (badTransfer (on 2000)).loaded = true ∧ (2 : BitVec 2).getLsbD 1 = true ∧ (3 : BitVec 2).getLsbD 1 = true := by decide
/-- For OpenIsANoOp, ReadTempReturnsTheReading, ReadStatusReturnsTheHeaterState, WriteTempHasNoEffect and
ReleaseTempHasNoEffect, with and without a transfer fault. -/
theorem witness_hostCommands : (on 4095).loaded = true ∧ (on 4095).side.xferFault = false ∧
    (badTransfer (off 0)).loaded = true ∧ (badTransfer (off 0)).side.xferFault = true := by decide
/-- For WriteStatusOnRequestsOn, RequestOnFollowsTheSoftLimit, ReleaseStatusForcesOff and RequestOffAndForceOffTurnOff:
at the soft limit and one above it, with and without a transfer fault. -/
theorem witness_heaterCommands :
    (off 2151).loaded = true ∧ (off 2151).own.heat = true ∧ (off 2151).side.xferFault = false ∧
    ¬ (off 2151).params.softLimit < (off 2151).temp.toNat ∧
    (on 2152).loaded = true ∧ (on 2152).own.heat = true ∧ (on 2152).params.softLimit < (on 2152).temp.toNat ∧
    (badTransfer (on 2152)).own.heat = true ∧ (badTransfer (on 2152)).side.xferFault = true := by decide
theorem witness_WriteStatusOffRequestsOff :
    (0x30 : Byte) ≠ 0x31 ∧ (0x32 : Byte) ≠ 0x31 ∧ (on 0).loaded = true ∧ (on 0).own.heat = true := by decide
theorem witness_UpdateTemperatureStoresTheReading : (on 2662).loaded = true := by decide
theorem witness_TurningOffIsIdempotent : ∃ (i : Instr) (s t : State),
    ((∃ b, i = .writeStatusOff b) ∨ (∃ b, i = .releaseStatus b) ∨ (∃ k, i = .requestOff k) ∨ (∃ k, i = .forceOff k)) ∧
    s.side.xferFault = false ∧ exec i s = .next t :=
  ⟨.writeStatusOff 0x30, on 2000, _, .inl ⟨_, rfl⟩, rfl, rfl⟩
theorem witness_BreachBeatsConcurrentRequestOn :
    (publishing 2663 (on 2000)).params.ok = true ∧ (publishing 2663 (on 2000)).loaded = true ∧
    (publishing 2663 (on 2000)).own.heat = true ∧ (publishing 2663 (on 2000)).side.xferFault = false ∧
    (publishing 2663 (on 2000)).wdph = .publish ∧
    (publishing 2663 (on 2000)).params.hardLimit < (publishing 2663 (on 2000)).result.toNat := by decide
theorem witness_OnlyAnHonouredRequestTurnsOn : ∃ t : State,
    exec .writeStatusOn (off 2151) = .next t ∧ (off 2151).heating = false ∧ t.heating = true ∧
    (off 2151).heat = false ∧ t.heat = true := ⟨_, rfl, by decide⟩
/-- For UnownedLinesFault: a heat line that is not owned, about to publish a breach; and no line owned, in each phase. -/
theorem witness_UnownedLinesFault :
    (disowned (publishing 2663 (on 0))).loaded = true ∧ (disowned (publishing 2663 (on 0))).own.heat = false ∧
    (disowned (publishing 2663 (on 0))).side.xferFault = false ∧ (disowned (publishing 2663 (on 0))).wdph = .publish ∧
    (disowned (publishing 2663 (on 0))).params.hardLimit < (disowned (publishing 2663 (on 0))).result.toNat ∧
    (disowned (publishing 2663 (on 0))).heating = true ∧
    ∀ p : SlPhase, p ∈ [SlPhase.select, .rise, .sample, .fall, .deselect] →
      (disowned (sampling p (on 0))).loaded = true ∧ (disowned (sampling p (on 0))).wdph = .sample ∧
      (disowned (sampling p (on 0))).slph = p ∧ (disowned (sampling p (on 0))).own = .all false := by decide
/-- SAMPLE with the first, the second and the third of the sensor's lines not owned. -/
theorem witness_UnownedLinesFault_sample :
    faults (exec (.sample 0) (disowned (sampling .select (on 0)))) (.lineNotOwned .cs) = true ∧
    faults (exec (.sample 0) { sampling .select (on 0) with own := ⟨true, false, true, true⟩ })
      (.lineNotOwned .clk) = true ∧
    faults (exec (.sample 0) { sampling .select (on 0) with own := ⟨true, true, false, true⟩ })
      (.lineNotOwned .data) = true := by decide
/-- For SerialMicroStepsFollowTheirRules: one state for each phase of its clauses, and both ends of SL_HOLD_LO. -/
theorem witness_SerialMicroStepsFollowTheirRules :
    ∀ p : SlPhase, p ∈ [SlPhase.select, .rise, .holdHi, .fall, .holdLo, .deselect] →
      (sampling p (on 2000)).loaded = true ∧ (sampling p (on 2000)).wdph = .sample ∧
      (sampling p (on 2000)).own.cs = true ∧ (sampling p (on 2000)).own.clk = true ∧
      (sampling p (on 2000)).slph = p := by decide
theorem witness_SerialMicroSteps_holdLo :
    next (exec .wdCycle { sampling .holdLo State.reset with bitcnt := 15 }) (fun t => t.slph == .rise) = true ∧
    next (exec .wdCycle { sampling .holdLo State.reset with bitcnt := 16 }) (fun t => t.slph == .deselect) = true := by
  decide
theorem witness_SerialSampleShiftsTheDataLevelIn :
    (sampling .sample State.reset).loaded = true ∧ (sampling .sample State.reset).wdph = .sample ∧
    (sampling .sample State.reset).slph = .sample ∧ (sampling .sample State.reset).own.data = true ∧
    (sampling .sample State.reset).sensor = [] ∧
    ({ sampling .sample State.reset with sensor := [true] }).sensor = true :: [] := by decide
theorem witness_SampleReconstructsTheReading :
    (sampling .select (on 2000)).loaded = true ∧ (sampling .select (on 2000)).wdph = .sample ∧
    (sampling .select (on 2000)).slph = .select ∧ (sampling .select (on 2000)).own.cs = true ∧
    (sampling .select (on 2000)).own.clk = true ∧ (sampling .select (on 2000)).own.data = true := by decide
theorem witness_SampleIsEightyTwoWatchdogSteps :
    (presenting 0xBE87 (sampling .select (on 0))).inbox = [] ∧
    (presenting 0xBE87 (sampling .select (on 0))).loaded = true ∧
    (presenting 0xBE87 (sampling .select (on 0))).wdph = .sample ∧
    (presenting 0xBE87 (sampling .select (on 0))).slph = .select ∧
    (presenting 0xBE87 (sampling .select (on 0))).sensor = frameLevels 0xBE87 ++ [] := by decide
theorem witness_SampleStartsOnlyFromTheWatchdog :
    State.reset.loaded = true ∧ State.reset.wdph ≠ .sample ∧
    (sampling .rise State.reset).loaded = true ∧ (sampling .rise State.reset).slph ≠ .select := by decide
theorem witness_OnlySamplingTouchesTheSensorLines : ∃ t : State,
    exec .wdCycle State.reset = .next t ∧ Instr.wdCycle ≠ .init ∧ State.reset.wdph ≠ .sample ∧
    ∀ f, Instr.wdCycle ≠ .sample f := ⟨_, rfl, by decide, by decide, fun _ h => nomatch h⟩
theorem witness_WatchdogTopTestsTheStopInputs : State.reset.loaded = true ∧ State.reset.wdph = .top := by decide
theorem witness_WatchdogArmsAndLeavesTheSample :
    (inPhase .arm State.reset).loaded = true ∧ (inPhase .arm State.reset).wdph = .arm ∧
    (sampling .idle State.reset).loaded = true ∧ (sampling .idle State.reset).wdph = .sample ∧
    (sampling .idle State.reset).slph = .idle := by decide
/-- Above the limit and On; at the limit and On; above the limit and Off. -/
theorem witness_WatchdogPublishesAndCutsTheHeater :
    (publishing 2663 (on 0)).loaded = true ∧ (publishing 2663 (on 0)).wdph = .publish ∧
    (publishing 2663 (on 0)).params.hardLimit < (publishing 2663 (on 0)).result.toNat ∧
    (publishing 2663 (on 0)).heating = true ∧ (publishing 2663 (on 0)).own.heat = true ∧
    (publishing 2662 (on 0)).wdph = .publish ∧
    (publishing 2662 (on 0)).result.toNat ≤ (publishing 2662 (on 0)).params.hardLimit ∧
    (publishing 2663 (off 0)).wdph = .publish ∧ (publishing 2663 (off 0)).heating = false := by decide
/-- A stop pending; NOW at the deadline; NOW one before it. -/
theorem witness_WatchdogIdleWait :
    (inPhase .idle State.reset).loaded = true ∧ (inPhase .idle State.reset).wdph = .idle ∧
    ({ inPhase .idle State.reset with kill := true }).kill = true ∧
    (inPhase .idle State.reset).stopflag = false ∧ (inPhase .idle State.reset).kill = false ∧
    (inPhase .idle State.reset).deadline ≤ (inPhase .idle State.reset).now ∧
    ({ inPhase .idle State.reset with deadline := 1 }).now < 1 := by decide
theorem witness_WatchdogHasAStepUntilItEnds :
    (on 2662).loaded = true ∧ (on 2662).safe = true ∧ (on 2662).wdph ≠ .term ∧
    (inPhase .term State.reset).loaded = true ∧ (inPhase .term State.reset).wdph = .term ∧
    (inPhase .off State.reset).wdph = .off := by decide
theorem witness_WatchdogMovesWithinTheListedTurns :
    (listed (.present ⟨.life, 0⟩ .quiet)).safe = true ∧ (listed (.present ⟨.life, 0⟩ .quiet)).loaded = true ∧
    (listed (.present ⟨.life, 0⟩ .quiet)).wdph ≠ .term := by decide
theorem witness_OneCyclePublishesTheFrame :
    (presenting 0x3E80 (on 2000)).inbox = [] ∧ (presenting 0x3E80 (on 2000)).loaded = true ∧
    (presenting 0x3E80 (on 2000)).own = .all true ∧ (presenting 0x3E80 (on 2000)).wdph = .top ∧
    (presenting 0x3E80 (on 2000)).stopflag = false ∧ (presenting 0x3E80 (on 2000)).kill = false ∧
    (presenting 0x3E80 (on 2000)).sensor = frameLevels 0x3E80 ++ [] := by decide
theorem witness_PendingStopLetsTheSampleFinish : ∃ s : State, s.inbox = [] ∧ s.loaded = true ∧ s.own = .all true ∧
    s.wdph = .sample ∧ s.slph = .select ∧ (s.stopflag = true ∨ s.kill = true) ∧ s.sensor = frameLevels 0x7FF8 ++ [] :=
  ⟨{ presenting 0x7FF8 (sampling .select (on 2000)) with kill := true }, by decide⟩
theorem witness_IdleWaitReachesTheDeadline : ∃ s : State, s.inbox = [] ∧ s.loaded = true ∧ s.wdph = .idle ∧
    s.stopflag = false ∧ s.kill = false ∧ 0 < s.params.tYield ∧ s.now < s.deadline :=
  ⟨{ inPhase .idle State.reset with deadline := 1000 }, by decide⟩
theorem witness_OnlyThePublishStepWritesTemp : ∃ t : State,
    exec .wdCycle (publishing 2700 (on 2000)) = .next t ∧ t.temp ≠ (publishing 2700 (on 2000)).temp :=
  ⟨_, rfl, by decide⟩
theorem witness_InitGivesTheResetState :
    unloadedBlock.loaded = false ∧ unloadedBlock.side.busy = .all false := by decide
theorem witness_FailedInitChangesNothing :
    unloadedBlock.loaded = false ∧ unloadedBlock.own = .all false ∧
    ({ unloadedBlock with side := ⟨false, ⟨false, false, false, true⟩⟩ }).side.busy ≠ .all false ∧
    State.reset.loaded = true := by decide
theorem witness_StopAndKillSetTheirBits : (inPhase .term State.reset).loaded = true := by decide
/-- WD_TERM and no request, though STOP has set STOPFLAG; a request without WD_TERM; both. -/
theorem witness_ShutdownRequestsThenCompletes :
    ({ inPhase .term (on 0) with stopflag := true }).loaded = true ∧
    ({ inPhase .term (on 0) with stopflag := true }).shutdownRequested = false ∧
    (awaiting (inPhase .publish (on 0))).wdph ≠ .term ∧ (awaiting (inPhase .term (on 0))).wdph = .term ∧
    (awaiting (inPhase .term (on 0))).shutdownRequested = true := by decide
theorem witness_UnloadedBlockRefusesEverythingButInit :
    unloadedBlock.loaded = false ∧ Instr.shutdown ≠ .init := by decide
theorem witness_StopInputsStaySetUntilInit : ∃ s t : State, exec .stop s = .next t ∧ Instr.stop ≠ .init ∧
    s.kill = true ∧ t.kill = true ∧ t.stopflag = true :=
  ⟨{ State.reset with kill := true }, _, rfl, by decide⟩
theorem witness_LinesAreReleasedOnlyAfterTheJoin : ∃ s t : State, exec .shutdown s = .next t ∧ s.loaded = true ∧
    t.own ≠ s.own ∧ t.loaded = false :=
  ⟨awaiting (inPhase .term (on 0)), _, rfl, by decide⟩
/-- For EveryStepKeepsTheBlockSafe, SafeStatesNeverFault, ParametersNeverChange and TimeNeverGoesBack. -/
theorem witness_safeStates : ∃ t : State, (on 2662).safe = true ∧ step (on 2662) = .next t ∧
    unloadedBlock.safe = true ∧ (sampling .select (off 4095)).safe = true := ⟨_, by decide, rfl, by decide⟩
theorem witness_FaultResponsesArePrecise : ∃ t : State, (badTransfer (on 2000)).safe = true ∧
    exec .writeStatusOn (badTransfer (on 2000)) = .next t ∧ t.response = some ⟨.fault, .xfer, []⟩ :=
  ⟨_, by decide, rfl, by decide⟩
theorem witness_StatusReadsOffAboveTheHardLimit : ∃ t : State, (off 2663).safe = true ∧ (off 2663).loaded = true ∧
    (off 2663).side.xferFault = false ∧ (off 2663).params.hardLimit < (off 2663).temp.toNat ∧
    exec (.readStatus 0) (off 2663) = .next t := ⟨_, by decide, by decide, by decide, by decide, rfl⟩
/-- For RolesKeepToTheirRights and StrobesComeFromTheirOperations: one next state for each agent and each strobe. -/
theorem witness_RolesKeepToTheirRights : (∃ t : State, exec .writeStatusOn (off 2151) = .next t) ∧
    agentOf .writeStatusOn = .controlPath ∧ (∃ t : State, exec .kill (on 0) = .next t) ∧
    agentOf .kill = .lifecycle ∧ (∃ t : State, exec .wdCycle (publishing 2663 (on 0)) = .next t) ∧
    agentOf .wdCycle = .watchdog := ⟨⟨_, rfl⟩, rfl, ⟨_, rfl⟩, rfl, ⟨_, rfl⟩, rfl⟩

end Sys2Proof.Tests
end

/-! The layer of facts the statements about State share: what an instruction does, what a step of the machine is made
of, and the two shapes of a safe block. -/

namespace Sys2Proof.Machine

open Sys2Proof

/-! ## What an instruction does

`exec_cases` with its cases named. The three answers of the interlock, on refused, on honoured and off, are one case:
each sets HEATING and HEAT to one level, and to On only at or below the soft limit. -/

/-- The effects an instruction can have on a state it answers a next state for. -/
inductive Effect (s : State) : Instr → State → Prop
  | answered {i : Instr} (r : Response) (loaded : s.loaded = true) : Effect s i (respond r s)
  | heaterSet {i : Instr} (on : Bool) (e : Event) (r : Option Response) (loaded : s.loaded = true)
      (belowSoft : on = true → s.temp.toNat ≤ s.params.softLimit) :
      Effect s i { s with heating := on, heat := on, events := s.events ++ [e], response := r }
  | updated (k : Ticks) (loaded : s.loaded = true) :
      Effect s (.updateTemperature k) { s with temp := k, response := none }
  | sampled (f : Frame) {t : State} (loaded : s.loaded = true) (sample : execSample f s = .next t) :
      Effect s (.sample f) t
  | cycled {t : State} (loaded : s.loaded = true) (cycle : watchdogStep (noResponse s) = .next t) :
      Effect s .wdCycle t
  | initialised (unloaded : s.loaded = false) :
      Effect s .init (respondOk [] (initRegisters { s with own := .all true, cs := true, clk := false, heat := false }))
  | initFailed (o : LineBits) (unloaded : s.loaded = false) (givenBack : s.own = .all false → o = .all false) :
      Effect s .init (raiseFault .noLine { s with own := o })
  | stopped (loaded : s.loaded = true) : Effect s .stop (respondOk [] { s with stopflag := true })
  | killed (loaded : s.loaded = true) : Effect s .kill (respondOk [] { s with kill := true })
  | shutDown (loaded : s.loaded = true) :
      Effect s .shutdown
        (respondOk [] { s with own := .all false, wdph := .off, loaded := false, shutdownRequested := false })
  | shutdownAsked (loaded : s.loaded = true) :
      Effect s .shutdown (noResponse { s with stopflag := true, shutdownRequested := true })

/-- A failed INIT leaves no line owned where none was (R205). -/
theorem failedInit_givenBack {s : State} {o : LineBits} (ho : s.own = .all false) (hb : s.side.busy ≠ .all false)
    (h : execInit s = .next (raiseFault .noLine { s with own := o })) : o = .all false := by
  obtain ⟨-, ⟨hb', -⟩ | ⟨-, heq⟩⟩ := execInit_cases ho h
  · exact absurd hb' hb
  · exact (congrArg State.own heq).trans ho

/-- An instruction that answers a next state has one of the effects. -/
theorem exec_effect {i : Instr} {s t : State} (h : exec i s = .next t) : Effect s i t := by
  rcases exec_cases h with ⟨hl, -, r, rfl, -⟩ | ⟨hl, -, -, -, rfl⟩ | ⟨hl, -, -, hlow, rfl⟩ | ⟨hl, -, -, r, -, rfl⟩ |
    ⟨hl, k, rfl, rfl⟩ | ⟨hl, f, rfl, hf⟩ | ⟨hl, rfl, hw⟩ | ⟨hl, rfl, -, rfl⟩ | ⟨hl, rfl, hb, o, rfl⟩ |
    ⟨hl, rfl, rfl⟩ | ⟨hl, rfl, rfl⟩ | ⟨hl, rfl, -, -, rfl⟩ | ⟨hl, rfl, -, rfl⟩
  · exact .answered r hl
  · exact .heaterSet false .refused _ hl (by simp)
  · exact .heaterSet true .turnedOn _ hl fun _ => hlow
  · exact .heaterSet false .turnedOff r hl (by simp)
  · exact .updated k hl
  · exact .sampled f hl hf
  · exact .cycled hl hw
  · exact .initialised hl
  · exact .initFailed o hl fun ho => failedInit_givenBack ho hb h
  · exact .stopped hl
  · exact .killed hl
  · exact .shutDown hl
  · exact .shutdownAsked hl

/-- INIT's register writes touch neither the parameters, nor the listed turns, nor NOW. -/
theorem initRegisters_frame (s : State) :
    (initRegisters s).params = s.params ∧ (initRegisters s).inbox = s.inbox ∧ (initRegisters s).now = s.now :=
  ⟨rfl, rfl, rfl⟩

/-- What no instruction writes: the parameters (R29) and the turns still listed; and time does not go back (R24). -/
theorem exec_frame {i : Instr} {s t : State} (h : exec i s = .next t) :
    t.params = s.params ∧ t.inbox = s.inbox ∧ s.now ≤ t.now := by
  cases exec_effect h with
  | sampled f _ hf =>
    obtain ⟨-, -, -, heq, hnow⟩ := execSample_frame hf
    exact ⟨by rw [heq], by rw [heq], hnow⟩
  | cycled _ hw =>
    obtain ⟨-, -, -, -, hparams, -, hinbox, -, -, hnow⟩ := watchdogStep_frame hw
    exact ⟨hparams, hinbox, hnow⟩
  | initialised => simp [initRegisters_frame]
  | _ => simp

/-! ## What a step of the machine is made of -/

/-- The two kinds of step: an instruction that was listed or that the agents take by themselves is performed, or the
environment lets time pass. Either way the listed turns up to the one taken are gone. -/
inductive Move (s t : State) : Prop
  | performs (i : Instr) (side : SideInputs) (rest : List Turn) (left : rest <:+ s.inbox)
      (origin : (∃ word, .present word side ∈ s.inbox ∧ decode word = .instr i) ∨ i = .wdCycle ∨ i = .shutdown)
      (performed : exec i (s.takeTurn side rest) = .next t)
  | passes (dt n : Nat) (rest : List Turn) (left : rest <:+ s.inbox)
      (passed : t = environmentStep dt { s with inbox := rest, fresh := n })

/-- A step that answers a next state is a move. -/
theorem step_move {s t : State} (h : step s = .next t) : Move s t := by
  rcases step_cases h with ⟨pre, word, side, rest, i, hin, hd, he⟩ | ⟨pre, dt, rest, hin, rfl⟩ | hown
  · exact .performs i side rest (hin ▸ ⟨pre ++ [.present word side], by simp⟩) (.inl ⟨word, by simp [hin], hd⟩) he
  · exact .passes dt s.fresh rest (hin ▸ ⟨pre ++ [.wait dt], by simp⟩) rfl
  · rcases ownStep_cases hown with ⟨-, he⟩ | ⟨-, -, he⟩ | ⟨-, -, rfl⟩
    · exact .performs .wdCycle s.side [] List.nil_suffix (.inr (.inl rfl)) he
    · exact .performs .shutdown s.side [] List.nil_suffix (.inr (.inr rfl)) he
    · exact .passes _ (s.fresh + 1) [] List.nil_suffix rfl

/-- What every step leaves alone: the parameters; and time does not go back, nor does the list of turns grow. -/
theorem step_frame {s t : State} (h : step s = .next t) :
    t.params = s.params ∧ t.inbox <:+ s.inbox ∧ s.now ≤ t.now := by
  cases step_move h with
  | performs i side rest left _ he =>
    obtain ⟨hparams, hinbox, hnow⟩ := exec_frame he
    exact ⟨hparams, hinbox ▸ left, hnow⟩
  | passes dt n rest left ht => subst ht; simpa using left

/-! ## Safe blocks -/

/-- `State.loadedConsistent` with its parts named: R28, R21, R36, R89, R22, R91 and R204. -/
structure LoadedSafe (s : State) : Prop where
  owned : s.own = .all true
  follows : s.heat = s.heating
  limit : s.heating = true → s.temp.toNat ≤ s.params.hardLimit
  serial : s.serialConsistent = true
  hasWatchdog : s.wdph ≠ .off
  sampling : s.wdph = .sample ∨ s.slph = .idle
  request : s.shutdownRequested = true → s.stopflag = true

/-- `State.unloadedConsistent` with its parts named (R33, R204). -/
structure UnloadedSafe (s : State) : Prop where
  released : s.own = .all false
  ended : s.wdph = .off
  noRequest : s.shutdownRequested = false

/-- What `State.safe` says of the block itself, without the inbox. -/
structure BlockSafe (s : State) : Prop where
  legal : s.params.ok = true
  whenLoaded : s.loaded = true → LoadedSafe s
  whenUnloaded : s.loaded = false → UnloadedSafe s

theorem loadedConsistent_iff (s : State) : s.loadedConsistent = true ↔ LoadedSafe s := by
  simp only [State.loadedConsistent, State.lineFollowsHeater, State.onBelowHardLimit, State.phasesConsistent,
    State.requestStands, Bool.and_eq_true, beq_iff_eq, bne_iff_ne, Bool.or_eq_true, Bool.not_eq_true',
    decide_eq_true_eq]
  constructor
  · rintro ⟨⟨⟨⟨⟨ho, hf⟩, hlim⟩, hser⟩, hex, hsam⟩, hreq⟩
    exact ⟨ho, hf, fun hon => hlim.resolve_left (by simp [hon]), hser, hex, hsam,
      fun hr => hreq.resolve_left (by simp [hr])⟩
  · rintro ⟨ho, hf, hlim, hser, hex, hsam, hreq⟩
    exact ⟨⟨⟨⟨⟨ho, hf⟩, by cases hh : s.heating <;> simp_all⟩, hser⟩, hex, hsam⟩,
      by cases hr : s.shutdownRequested <;> simp_all⟩

theorem unloadedConsistent_iff (s : State) : s.unloadedConsistent = true ↔ UnloadedSafe s := by
  simp only [State.unloadedConsistent, Bool.and_eq_true, beq_iff_eq, Bool.not_eq_true']
  exact ⟨fun ⟨⟨ho, hw⟩, hr⟩ => ⟨ho, hw, hr⟩, fun ⟨ho, hw, hr⟩ => ⟨⟨ho, hw⟩, hr⟩⟩

theorem BlockSafe.ofLoaded {s : State} (hp : s.params.ok = true) (hl : s.loaded = true) (hs : LoadedSafe s) :
    BlockSafe s :=
  ⟨hp, fun _ => hs, by simp [hl]⟩

theorem BlockSafe.ofUnloaded {s : State} (hp : s.params.ok = true) (hl : s.loaded = false) (hs : UnloadedSafe s) :
    BlockSafe s :=
  ⟨hp, by simp [hl], fun _ => hs⟩

/-- A state is safe when its block is and its inbox holds only what may come from outside. -/
theorem safe_iff (s : State) : s.safe = true ↔ BlockSafe s ∧ s.inbox.all Turn.crossesBoundary = true := by
  rw [State.safe, Bool.and_eq_true, Bool.and_eq_true]
  refine and_congr_left fun _ => ?_
  cases hl : s.loaded
  · rw [if_neg (by simp), unloadedConsistent_iff]
    exact ⟨fun ⟨hp, hu⟩ => .ofUnloaded hp hl hu, fun h => ⟨h.legal, h.whenUnloaded hl⟩⟩
  · rw [if_pos rfl, loadedConsistent_iff]
    exact ⟨fun ⟨hp, hs⟩ => .ofLoaded hp hl hs, fun h => ⟨h.legal, h.whenLoaded hl⟩⟩

/-- The heater goes On at or below the soft limit only, which legal parameters put below the hard limit (R207). -/
theorem softLimit_le_hardLimit {p : Config.Params} (h : p.ok = true) : p.softLimit ≤ p.hardLimit := by
  simp only [Config.Params.ok, Bool.and_eq_true, decide_eq_true_eq] at h
  omega

/-! ## The watchdog and the serial engine keep a loaded block safe -/

/-- Outside WD_SAMPLE the serial engine is at rest (R91). -/
theorem LoadedSafe.slph_idle {s : State} (h : LoadedSafe s) (hw : s.wdph ≠ .sample) : s.slph = .idle :=
  h.sampling.resolve_left hw

theorem frameComplete_iff (s : State) : frameComplete s = true ↔ s.bitcnt.toNat = 16 := by
  rw [frameComplete, beq_iff_eq, ← BitVec.toNat_inj]; rfl

/-- Every micro-step leads from the levels of its phase to those of the next (R89). -/
theorem slMicroStep_keeps_serialConsistent {s t : State} (h : slMicroStep s = .next t)
    (hs : s.serialConsistent = true) : t.serialConsistent = true := by
  rcases slMicroStep_cases h with ⟨hp, -, rfl⟩ | ⟨hp, -, rfl⟩ | ⟨hp, rfl⟩ | ⟨hp, -, rfl⟩ | ⟨hp, -, rfl⟩ |
    ⟨hp, rfl⟩ | ⟨hp, -, rfl⟩ <;> simp only [State.serialConsistent, hp] at hs ⊢
  · simp_all
  · simp_all
  · simp_all
  · simp only [Bool.and_eq_true, decide_eq_true_eq, State.dataTaken_cs, State.dataTaken_clk] at hs ⊢
    obtain ⟨hlines, hcount⟩ := hs
    have hsucc : (s.bitcnt + 1).toNat = s.bitcnt.toNat + 1 := by bv_omega
    exact ⟨⟨hlines, by omega⟩, by omega⟩
  · simp_all
  · simp only [Bool.and_eq_true, decide_eq_true_eq] at hs
    obtain ⟨⟨hlines, -⟩, hle⟩ := hs
    by_cases hf : frameComplete s = true
    · simpa [hf, (frameComplete_iff s).1 hf] using hlines
    · have hlt : s.bitcnt.toNat < 16 := Nat.lt_of_le_of_ne hle (mt (frameComplete_iff s).2 hf)
      simpa [hf, hlt] using hlines
  · simp_all

/-- A micro-step inside a sample keeps a loaded block safe. -/
theorem slMicroStep_keeps_loadedSafe {s t : State} (h : slMicroStep s = .next t) (hw : s.wdph = .sample)
    (hs : LoadedSafe s) : LoadedSafe t := by
  obtain ⟨-, -, hwdph, -, hown, hparams, hheating, hheat, htemp, hstop, -⟩ := slMicroStep_keeps h
  have hreq : t.shutdownRequested = s.shutdownRequested := by rw [(slMicroStep_frame h).1]
  exact {
    owned := by rw [hown, hs.owned]
    follows := by rw [hheat, hheating, hs.follows]
    limit := by rw [hheating, htemp, hparams]; exact hs.limit
    serial := slMicroStep_keeps_serialConsistent h hs.serial
    hasWatchdog := by rw [hwdph]; exact hs.hasWatchdog
    sampling := .inl (by rw [hwdph, hw])
    request := by rw [hreq, hstop]; exact hs.request }

/-- A row of micro-steps inside a sample keeps a loaded block safe. -/
theorem slMicroSteps_keeps_loadedSafe {n : Nat} {s t : State} (h : slMicroSteps n s = .next t) (hw : s.wdph = .sample)
    (hs : LoadedSafe s) : LoadedSafe t := by
  induction n generalizing s with
  | zero => cases h; exact hs
  | succ n ih =>
    rw [slMicroSteps_succ] at h
    obtain ⟨u, hu, hrest⟩ := andThen_eq_next.1 h
    obtain ⟨-, -, hwdph, -⟩ := slMicroStep_keeps hu
    exact ih hrest (by rw [hwdph, hw]) (slMicroStep_keeps_loadedSafe hu hw hs)

/-- SAMPLE keeps a loaded block safe. -/
theorem execSample_keeps_loadedSafe {f : Frame} {s t : State} (h : execSample f s = .next t) (hs : LoadedSafe s) :
    LoadedSafe t := by
  obtain ⟨hl, hw, hsl, -⟩ := execSample_frame h
  rw [execSample_started f hl hw hsl] at h
  exact slMicroSteps_keeps_loadedSafe h hw { hs with }

/-- WD_PUBLISH keeps a loaded block safe: it publishes what the comparison with the hard limit has let pass, or the
heater goes Off (R36, R104). -/
theorem wdPublish_keeps_loadedSafe {s t : State} (h : wdPublish s = .next t) (hw : s.wdph = .publish)
    (hs : LoadedSafe s) : LoadedSafe t := by
  have hidle : s.slph = .idle := hs.slph_idle (by simp [hw])
  rcases wdPublish_eq_next.1 h with ⟨-, -, rfl⟩ | ⟨hb, rfl⟩
  · exact { hs with follows := rfl, limit := by simp, hasWatchdog := by simp, sampling := .inr hidle }
  · exact { hs with
      limit := fun hon => by simpa [breach, aboveHardLimit, show s.heating = true from hon] using hb
      hasWatchdog := by simp
      sampling := .inr hidle }

/-- A step of the watchdog keeps a loaded block safe. -/
theorem watchdogStep_keeps_loadedSafe {s t : State} (h : watchdogStep s = .next t) (hs : LoadedSafe s) :
    LoadedSafe t := by
  rcases watchdogStep_cases h with ⟨hw, rfl⟩ | ⟨hw, rfl⟩ | ⟨-, hidle, rfl⟩ | ⟨hw, -, h⟩ | ⟨hw, h⟩ | ⟨hw, -, rfl⟩ |
    ⟨hw, -, -, rfl⟩ | ⟨-, -, -, rfl⟩
  · exact { hs with
      hasWatchdog := by cases stopRequested s <;> simp
      sampling := .inr (hs.slph_idle (by simp [hw])) }
  · have hserial := hs.serial
    rw [State.serialConsistent, hs.slph_idle (by simp [hw])] at hserial
    exact { hs with serial := hserial, hasWatchdog := by simp, sampling := .inl rfl }
  · exact { hs with hasWatchdog := by simp, sampling := .inr hidle }
  · exact slMicroStep_keeps_loadedSafe h hw hs
  · exact wdPublish_keeps_loadedSafe h hw hs
  · exact { hs with hasWatchdog := by simp, sampling := .inr (hs.slph_idle (by simp [hw])) }
  · exact { hs with hasWatchdog := by simp, sampling := .inr (hs.slph_idle (by simp [hw])) }
  · exact { hs with }

/-! ## Every step keeps a block safe -/

/-- Every instruction keeps a block safe, but for UPDATE_TEMPERATURE, which compares nothing (R124) and which nothing
outside the block can raise (R130). -/
theorem exec_keeps_blockSafe {i : Instr} {s t : State} (h : exec i s = .next t)
    (hi : ∀ k, i ≠ .updateTemperature k) (hs : BlockSafe s) : BlockSafe t := by
  cases exec_effect h with
  | answered r hl => exact .ofLoaded hs.legal hl { hs.whenLoaded hl with }
  | heaterSet on e r hl hsoft =>
    have hlimit (hon : on = true) := Nat.le_trans (hsoft hon) (softLimit_le_hardLimit hs.legal)
    exact .ofLoaded hs.legal hl { hs.whenLoaded hl with follows := rfl, limit := hlimit }
  | updated k => exact absurd rfl (hi k)
  | sampled f hl hf =>
    obtain ⟨-, -, -, heq, -⟩ := execSample_frame hf
    have hlt : t.loaded = true := by rw [heq]; exact hl
    have hpt : t.params = s.params := by rw [heq]
    exact .ofLoaded (hpt ▸ hs.legal) hlt (execSample_keeps_loadedSafe hf (hs.whenLoaded hl))
  | cycled hl hw =>
    obtain ⟨-, -, -, hlt, hpt, -⟩ := watchdogStep_frame hw
    exact .ofLoaded (hpt ▸ hs.legal) (hlt.trans hl) (watchdogStep_keeps_loadedSafe hw { hs.whenLoaded hl with })
  | initialised =>
    exact .ofLoaded hs.legal rfl
      { owned := rfl, follows := rfl, limit := nofun, serial := rfl, hasWatchdog := nofun, sampling := .inr rfl,
        request := nofun }
  | initFailed o hl ho =>
    have hu := hs.whenUnloaded hl
    exact .ofUnloaded hs.legal hl { hu with released := ho hu.released }
  | stopped hl => exact .ofLoaded hs.legal hl { hs.whenLoaded hl with request := fun _ => rfl }
  | killed hl => exact .ofLoaded hs.legal hl { hs.whenLoaded hl with }
  | shutDown => exact .ofUnloaded hs.legal rfl ⟨rfl, rfl, rfl⟩
  | shutdownAsked hl => exact .ofLoaded hs.legal hl { hs.whenLoaded hl with request := fun _ => rfl }

/-- A block stays safe while time passes: loaded it keeps its registers, unloaded it keeps what R33 states of it. -/
theorem environmentStep_keeps_blockSafe {s : State} (dt : Nat) (hs : BlockSafe s) :
    BlockSafe (environmentStep dt s) := by
  cases hl : s.loaded
  · have hu := hs.whenUnloaded hl
    exact .ofUnloaded (by simpa using hs.legal) (by simpa using hl)
      ⟨by simpa using hu.released, by simpa using hu.ended, by simpa using hu.noRequest⟩
  · rw [environmentStep_loaded_eq s dt hl]
    exact .ofLoaded hs.legal hl { hs.whenLoaded hl with }

/-- The environment's inputs are no part of what makes a block safe. -/
theorem BlockSafe.withInputs {s : State} (hs : BlockSafe s) (side : SideInputs) (inbox : List Turn) (fresh : Nat) :
    BlockSafe { s with side := side, inbox := inbox, fresh := fresh } where
  legal := hs.legal
  whenLoaded hl := { hs.whenLoaded hl with }
  whenUnloaded hl := { hs.whenUnloaded hl with }

/-! UPDATE_TEMPERATURE comes by the interlock's port only (R71). -/

theorem decodeCmd_ne_updateTemperature (w : BitVec 12) (k : Ticks) : decodeCmd w ≠ .updateTemperature k := by
  simp only [decodeCmd]; split_ifs <;> simp

theorem decodeLife_ne_updateTemperature (w : BitVec 2) (k : Ticks) : decodeLife w ≠ .updateTemperature k := by
  simp only [decodeLife]; split_ifs <;> simp

theorem format_of_decode_updateTemperature {w : PortWord} {k : Ticks}
    (h : decode w = .instr (.updateTemperature k)) : w.format = .ireq := by
  unfold decode at h
  split at h
  · cases hf : w.format <;> simp_all [decodeCmd_ne_updateTemperature, decodeLife_ne_updateTemperature]
  · cases h

/-- No step of a state whose inbox holds only what may come from outside performs UPDATE_TEMPERATURE as an instruction
of its own (R130). -/
theorem ne_updateTemperature_of_origin {s : State} {i : Instr} {side : SideInputs}
    (hin : s.inbox.all Turn.crossesBoundary = true)
    (h : (∃ word, .present word side ∈ s.inbox ∧ decode word = .instr i) ∨ i = .wdCycle ∨ i = .shutdown) (k : Ticks) :
    i ≠ .updateTemperature k := by
  rintro rfl
  obtain ⟨word, hmem, hd⟩ | h | h := h
  · have hcross := List.all_eq_true.1 hin _ hmem
    simp [Turn.crossesBoundary, format_of_decode_updateTemperature hd] at hcross
  · cases h
  · cases h

/-- Settles O53: a step performs an instruction or lets time pass, and both keep a block safe. -/
theorem everyStepKeepsTheBlockSafe : Obligations.EveryStepKeepsTheBlockSafe := by
  intro s t hs h
  obtain ⟨hblock, hin⟩ := (safe_iff s).1 hs
  obtain ⟨-, hleft, -⟩ := step_frame h
  have hin' : t.inbox.all Turn.crossesBoundary = true :=
    List.all_eq_true.2 fun turn hmem => List.all_eq_true.1 hin turn (hleft.mem hmem)
  refine (safe_iff t).2 ⟨?_, hin'⟩
  cases step_move h with
  | performs i side rest _ origin he =>
    exact exec_keeps_blockSafe he (ne_updateTemperature_of_origin hin origin) (hblock.withInputs side rest s.fresh)
  | passes dt n rest _ ht =>
    exact ht ▸ environmentStep_keeps_blockSafe dt (hblock.withInputs s.side rest n)

/-- Settles O57: no step writes the parameters. -/
theorem parametersNeverChange : Obligations.ParametersNeverChange := by
  intro s t h
  obtain ⟨hparams, -, -⟩ := step_frame h
  exact hparams

/-- Settles O58: holds, yields and waits add to NOW, and nothing else writes it. -/
theorem timeNeverGoesBack : Obligations.TimeNeverGoesBack := by
  intro s t h
  obtain ⟨-, -, hnow⟩ := step_frame h
  exact hnow

/-! ## Who writes the sensor's lines, TEMP and the stop inputs -/

/-- Outside WD_SAMPLE the watchdog leaves the sensor's lines and the serial engine alone, but for the SLPH that WD_ARM
writes (R102). -/
theorem watchdogStep_sensor_frame {s t : State} (h : watchdogStep s = .next t) (hw : s.wdph ≠ .sample) :
    t.cs = s.cs ∧ t.clk = s.clk ∧ t.sr = s.sr ∧ t.bitcnt = s.bitcnt ∧ t.result = s.result ∧ t.sensor = s.sensor ∧
    (s.wdph ≠ .arm → t.slph = s.slph) := by
  rcases watchdogStep_cases h with ⟨-, rfl⟩ | ⟨ha, rfl⟩ | ⟨hs, -, -⟩ | ⟨hs, -, -⟩ | ⟨-, h⟩ | ⟨-, -, rfl⟩ |
    ⟨-, -, -, rfl⟩ | ⟨-, -, -, rfl⟩
  · simp
  · simp [ha]
  · exact absurd hs hw
  · exact absurd hs hw
  · rcases wdPublish_eq_next.1 h with ⟨-, -, rfl⟩ | ⟨-, rfl⟩ <;> simp
  · simp
  · simp
  · simp

/-- Of the watchdog's steps WD_PUBLISH alone writes TEMP, with RESULT (R104). -/
theorem watchdogStep_temp {s t : State} (h : watchdogStep s = .next t) :
    t.temp = s.temp ∨ (s.wdph = .publish ∧ t.temp = s.result) := by
  rcases watchdogStep_cases h with ⟨-, rfl⟩ | ⟨-, rfl⟩ | ⟨-, -, rfl⟩ | ⟨-, -, h⟩ | ⟨hw, h⟩ | ⟨-, -, rfl⟩ |
    ⟨-, -, -, rfl⟩ | ⟨-, -, -, rfl⟩
  · exact .inl rfl
  · exact .inl rfl
  · exact .inl rfl
  · obtain ⟨-, -, -, -, -, -, -, -, htemp, -⟩ := slMicroStep_keeps h
    exact .inl htemp
  · refine .inr ⟨hw, ?_⟩
    rcases wdPublish_eq_next.1 h with ⟨-, -, rfl⟩ | ⟨-, rfl⟩ <;> rfl
  · exact .inl rfl
  · exact .inl rfl
  · exact .inl rfl

/-- Settles O33: of the other effects only WD_ARM's step reaches the serial engine. -/
theorem onlySamplingTouchesTheSensorLines : Obligations.OnlySamplingTouchesTheSensorLines := by
  intro i s t h hinit hcycle hsample
  cases exec_effect h with
  | sampled f => exact absurd rfl (hsample f)
  | cycled _ hw =>
    obtain ⟨hcs, hclk, hsr, hcount, hresult, hsensor, hslph⟩ := watchdogStep_sensor_frame hw (hcycle rfl)
    exact ⟨hcs, hclk, hsr, hcount, hresult, hsensor, fun harm => hslph (harm rfl)⟩
  | initialised => exact absurd rfl hinit
  | initFailed => exact absurd rfl hinit
  | _ => simp

/-- Settles O43: the effects that write TEMP are WD_PUBLISH's, UPDATE_TEMPERATURE's and INIT's. -/
theorem onlyThePublishStepWritesTemp : Obligations.OnlyThePublishStepWritesTemp := by
  intro i s t h hne
  cases exec_effect h with
  | updated k => exact .inr (.inl rfl)
  | sampled f _ hf =>
    obtain ⟨-, -, -, heq, -⟩ := execSample_frame hf
    exact absurd (by rw [heq]) hne
  | cycled _ hw => exact .inl ⟨rfl, (watchdogStep_temp hw).resolve_left hne⟩
  | initialised => exact .inr (.inr ⟨rfl, rfl⟩)
  | _ => exact absurd rfl hne

/-- Settles O50: STOP, SHUTDOWN and KILL write a stop input, with 1; nothing else but INIT writes one. -/
theorem stopInputsStaySetUntilInit : Obligations.StopInputsStaySetUntilInit := by
  intro i s t h hinit
  cases exec_effect h with
  | sampled f _ hf =>
    obtain ⟨-, -, -, heq, -⟩ := execSample_frame hf
    rw [heq]
    exact ⟨id, id, .inl, .inl⟩
  | cycled _ hw =>
    obtain ⟨hstop, hkill, -⟩ := watchdogStep_frame hw
    rw [hstop, hkill]
    exact ⟨id, id, .inl, .inl⟩
  | initialised => exact absurd rfl hinit
  | initFailed => exact absurd rfl hinit
  | stopped => exact ⟨fun _ => rfl, id, .inl, fun _ => .inr (.inl rfl)⟩
  | killed => exact ⟨id, fun _ => rfl, fun _ => .inr rfl, .inl⟩
  | shutdownAsked => exact ⟨fun _ => rfl, id, .inl, fun _ => .inr (.inr rfl)⟩
  | _ => exact ⟨id, id, .inl, .inl⟩

/-! ## The environment's steps -/

/-- An unloaded block's registers take any value while time passes (R33). -/
theorem environmentStep_unloaded_eq (s : State) (dt : Nat) (h : s.loaded = false) :
    environmentStep dt s = unspecifyRegisters { s with now := s.now + dt } := by
  simp [environmentStep, h]

/-- Where no turn is listed and no agent has a step, time passes (R24, R106). -/
theorem step_idles {s : State} (hin : s.inbox = []) (hw : watchdogEnabled s = false) (hj : shutdownJoined s = false) :
    step s = .next (idleStep s) := by
  rw [step_own hin, ownStep, if_neg (by simp [hw]), if_neg (by simp [hj])]

/-- Settles O11, case by case: a listed wait and an idle step, of a loaded and of an unloaded block. -/
theorem timePassesWithoutChangingTheBlock : Obligations.TimePassesWithoutChangingTheBlock := by
  intro s
  refine ⟨?waitLoaded, ?idleLoaded, ?waitUnloaded, ?idleUnloaded⟩
  case waitLoaded =>
    intro dt rest hin hl
    rw [step_wait hin, environmentStep_loaded_eq _ dt (by exact hl)]
  case idleLoaded =>
    intro hin hl hended
    have hw : watchdogEnabled s = false := by obtain h | ⟨h, -⟩ := hended <;> simp [watchdogEnabled, h]
    have hj : shutdownJoined s = false := by obtain h | ⟨-, h⟩ := hended <;> simp [shutdownJoined, h]
    refine ⟨Config.anyDelay s.fresh, s.fresh + 1, ?_⟩
    rw [step_idles hin hw hj, idleStep, environmentStep_loaded_eq _ _ (by exact hl)]
  case waitUnloaded =>
    intro dt rest hin hl
    refine ⟨_, step_wait hin, ?_⟩
    rw [environmentStep_unloaded_eq _ dt (by exact hl)]
    rfl
  case idleUnloaded =>
    intro hin hl
    have hw : watchdogEnabled s = false := by simp [watchdogEnabled, hl]
    have hj : shutdownJoined s = false := by simp [shutdownJoined, hl]
    refine ⟨_, step_idles hin hw hj, by simp [idleStep], ?_⟩
    rw [idleStep, environmentStep_unloaded_eq _ _ (by exact hl)]
    rfl

/-! ## SL_SAMPLE -/

/-- Where no level of DATA is listed a free value is taken. -/
theorem State.dataTaken_nil {s : State} (h : s.sensor = []) : s.dataTaken = { s with fresh := s.fresh + 1 } := by
  simp [State.dataTaken, h]

/-- Taking a level of DATA and clearing the response do not meet. -/
theorem dataTaken_noResponse (s : State) : (noResponse s).dataTaken = noResponse s.dataTaken := by
  cases hs : s.sensor <;> simp [State.dataTaken, noResponse, hs]

/-- Shifting a level in puts it in bit 0 (R15). -/
theorem shiftIn_eq (sr : Frame) (b : Level) : shiftIn sr b = (sr <<< 1) ||| (if b then (1 : BitVec 16) else 0) := by
  cases b <;> rfl

/-- SL_SAMPLE of a block that owns DATA (R84). -/
theorem execWdCycle_sample {s : State} (hl : s.loaded = true) (hw : s.wdph = .sample) (hp : s.slph = .sample)
    (ho : s.own.data = true) :
    exec .wdCycle s = .next { s.dataTaken with
      sr := (s.sr <<< 1) ||| (if s.dataLevel then (1 : BitVec 16) else 0), bitcnt := s.bitcnt + 1, slph := .fall,
      response := none } := by
  have hmicro : exec .wdCycle s = slSample (noResponse s) := by
    simp [exec, execWdCycle, whenLoaded, hl, watchdogStep, hw, wdSample, slMicroStep, hp]
  rw [hmicro, slSample, lineRead_owned _ (by exact ho), dataTaken_noResponse, shiftIn_eq]
  simp [noResponse, State.dataLevel]

/-- Settles O29: the level is the next listed one, or a free value where none is listed. -/
theorem serialSampleShiftsTheDataLevelIn : Obligations.SerialSampleShiftsTheDataLevelIn := by
  intro s hl hw hp ho
  rw [execWdCycle_sample hl hw hp ho]
  constructor
  · intro b rest hs
    rw [State.dataTaken_cons hs, State.dataLevel_cons hs]
  · intro hs
    refine ⟨s.dataLevel, s.fresh + 1, ?_⟩
    rw [State.dataTaken_nil hs]

/-! ## Reset and INIT -/

/-- Settles O44: the fields of `State.reset` are the values of R32. -/
theorem resetLeavesTheInitialValues : Obligations.ResetLeavesTheInitialValues := by
  unfold Obligations.ResetLeavesTheInitialValues
  decide

/-- Settles O52: `State.reset` is loaded, at rest, Off, owns its lines and has R4's defaults. -/
theorem resetIsSafe : Obligations.ResetIsSafe := by
  unfold Obligations.ResetIsSafe
  decide

/-- INIT of an unloaded block with every line free (R201). -/
theorem execInit_free {s : State} (hl : s.loaded = false) (hb : s.side.busy = .all false) :
    execInit s =
      .next (respondOk [] (initRegisters { s with own := .all true, cs := true, clk := false, heat := false })) := by
  rw [execInit, if_neg (by simp [hl]), acquireLines_all_ok hb]
  simp only [if_true]
  rw [driveIdleLevels_owned rfl, andThen_next]

/-- Settles O45: the free value INIT writes to DEADLINE is the one at the counter. -/
theorem initGivesTheResetState : Obligations.InitGivesTheResetState := by
  intro s hl hb
  exact ⟨Config.anyDeadline s.fresh, s.fresh + 1, execInit_free hl hb⟩

end Sys2Proof.Machine

namespace Sys2Proof.Machine

open Sys2Proof

/-! ## What releases the lines -/

/-- An instruction of a loaded block other than SHUTDOWN keeps the reservations, and the block stays loaded (R55). -/
theorem exec_keeps_reservations {i : Instr} {s t : State} (h : exec i s = .next t) (hl : s.loaded = true)
    (hi : i ≠ .shutdown) : t.own = s.own ∧ t.loaded = true := by
  cases exec_effect h with
  | sampled f _ hf =>
    obtain ⟨-, -, -, heq, -⟩ := execSample_frame hf
    rw [heq]
    exact ⟨rfl, hl⟩
  | cycled _ hw =>
    obtain ⟨-, -, hown, hloaded, -⟩ := watchdogStep_frame hw
    exact ⟨hown, hloaded.trans hl⟩
  | initialised unloaded => simp [hl] at unloaded
  | initFailed _ unloaded => simp [hl] at unloaded
  | shutDown => exact absurd rfl hi
  | shutdownAsked => exact absurd rfl hi
  | _ => exact ⟨rfl, hl⟩

/-- Settles O51: of SHUTDOWN's two steps the request keeps the lines, and the other one follows the join (R204). -/
theorem linesAreReleasedOnlyAfterTheJoin : Obligations.LinesAreReleasedOnlyAfterTheJoin := by
  intro i s t h hl hreleased
  by_cases hi : i = .shutdown
  · subst hi
    obtain ⟨-, ⟨-, hterm, rfl⟩ | ⟨-, rfl⟩⟩ := execShutdown_eq_next.1 h
    · exact ⟨rfl, hterm, rfl, rfl⟩
    · simp [hl] at hreleased
  · obtain ⟨hown, hloaded⟩ := exec_keeps_reservations h hl hi
    simp [hown, hloaded] at hreleased

/-! ## What a step runs -/

/-- Settles O9: the three ways the first listed word is taken, each with its own law of `step`. -/
theorem stepRunsThePresentedInstruction : Obligations.StepRunsThePresentedInstruction := by
  intro s word side rest hin
  refine ⟨?performed, ?noStep, ?rejected⟩
  case performed => exact fun i hd hr => step_present hin hd hr
  case noStep => exact fun i r hd hr => step_refused hin hd hr
  case rejected => exact fun e hd => step_rejected hin hd

/-- Settles O10: the watchdog is enabled outside WD_OFF and WD_TERM, and in WD_TERM a SHUTDOWN that waits is joined. -/
theorem stepRunsTheWatchdogByItself : Obligations.StepRunsTheWatchdogByItself := by
  intro s hin hl
  refine ⟨?running, ?joined⟩
  case running =>
    intro hoff hterm
    have hw : watchdogEnabled s = true := by simp [watchdogEnabled, hl, hoff, hterm]
    rw [step_own hin, ownStep, if_pos hw]
  case joined =>
    intro hterm hreq
    have hw : ¬ watchdogEnabled s = true := by simp [watchdogEnabled, hterm]
    have hj : shutdownJoined s = true := by simp [shutdownJoined, hl, hreq, hterm]
    rw [step_own hin, ownStep, if_neg hw, if_pos hj]

end Sys2Proof.Machine

/-! The formats of spec/30_encoding.md: encoder and decoder are inverse to each other, the opcode table names what the
decoder reads, and the forms of a reading and of a temperature string. -/

namespace Sys2Proof

open Sys2Proof.Laws

/-! ## Decoding an encoding -/

@[simp] theorem chanNamesNoChannel_chTemp : chanNamesNoChannel Config.chTemp = false := rfl

@[simp] theorem chanNamesNoChannel_chStatus : chanNamesNoChannel Config.chStatus = false := rfl

@[simp] theorem toNat_chTemp : Config.chTemp.toNat = 0 := rfl

@[simp] theorem toNat_chStatus : Config.chStatus.toNat = 1 := rfl

@[simp] theorem chStatus_ne_chTemp : Config.chStatus ≠ Config.chTemp := by decide

@[simp] theorem chTemp_ne_chStatus : Config.chTemp ≠ Config.chStatus := chStatus_ne_chTemp.symm

/-- Bit 1 of a selector is its upper half (R63). -/
theorem chanNamesNoChannel_iff (chan : BitVec 2) : chanNamesNoChannel chan = true ↔ chan.toNat / 2 = 1 := by
  revert chan; decide

theorem byteRequestsOff_iff (byte : Byte) : byteRequestsOff byte = true ↔ byte ≠ 0x31 := by
  simp [byteRequestsOff]

/-- The decoder undoes the encoder on every well-formed operation. Its tests are on the fields of the word, which are
the fields the word was built from; only BADCHAN and WRITE.STATUS.OFF need that the operation is well formed. -/
theorem decode_encode {i : Instr} (h : i.wellFormed = true) : decode (encode i) = .instr i := by
  cases i
  case badchan op chan byte =>
    have hchan : chanNamesNoChannel chan = true := h
    simp [encode, decode_cmdWord, decodeCmd, cmdWord_op, cmdWord_chan, cmdWord_byte, hchan]
  case writeStatusOff byte =>
    have hbyte : byteRequestsOff byte = true := h
    simp [encode, decode_cmdWord, decodeCmd, cmdWord_op, cmdWord_chan, cmdWord_byte, hbyte]
  case openTemp byte | readTemp byte | writeTemp byte | releaseTemp byte | openStatus byte | readStatus byte
    | releaseStatus byte =>
    simp [encode, decode_cmdWord, decodeCmd, cmdWord_op, cmdWord_chan, cmdWord_byte]
  case requestOn ticks | requestOff ticks | forceOff ticks | updateTemperature ticks =>
    simp [encode, decode_ireqWord, decodeIreq, ireqWord_code, ireqWord_ticks]
  case sample frame =>
    have hfits : (encode (.sample frame)).bits < 2 ^ (encode (.sample frame)).format.width := EncodeFits.sample frame
    rw [decode, if_pos hfits]
    simp [encode]
  case writeStatusOn | wdCycle | init | stop | kill | shutdown => rfl

/-- Settles O1, by the case split of `decode_encode`. -/
theorem decodeOfEncodeIsIdentity : Obligations.DecodeOfEncodeIsIdentity := fun _ h => decode_encode h

/-! ## Every word of a format is an encoding -/

/-- A number of 12 bits is the command word of its fields (R63). -/
theorem exists_cmdWord {n : Nat} (h : n < 2 ^ 12) : ∃ op chan byte, cmdWord op chan byte = ⟨.cmd, n⟩ := by
  refine ⟨.ofNat 2 (n / 2 ^ 10), .ofNat 2 (n / 2 ^ 8), .ofNat 8 n, ?_⟩
  simp only [cmdWord, BitVec.toNat_ofNat, PortWord.mk.injEq, true_and]
  omega

/-- A number of 14 bits is the request of its fields (R71). -/
theorem exists_ireqWord {n : Nat} (h : n < 2 ^ 14) : ∃ code ticks, ireqWord code ticks = ⟨.ireq, n⟩ := by
  refine ⟨.ofNat 2 (n / 2 ^ 12), .ofNat 12 n, ?_⟩
  simp only [ireqWord, BitVec.toNat_ofNat, PortWord.mk.injEq, true_and]
  omega

theorem eq_zero_or_one_or_two_or_three (b : BitVec 2) : b = 0 ∨ b = 1 ∨ b = 2 ∨ b = 3 := by
  revert b; decide

theorem eq_chTemp_or_eq_chStatus {chan : BitVec 2} (h : ¬ chanNamesNoChannel chan = true) :
    chan = Config.chTemp ∨ chan = Config.chStatus := by
  revert chan; decide

/-- Every command word is the word of a well-formed operation: the selector is a channel or BADCHAN's, and the byte of
a status write is '1' or another (R64, R65). -/
theorem exists_encode_eq_cmdWord (op chan : BitVec 2) (byte : Byte) :
    ∃ i : Instr, i.wellFormed = true ∧ encode i = cmdWord op chan byte := by
  by_cases hchan : chanNamesNoChannel chan = true
  · exact ⟨.badchan op chan byte, hchan, rfl⟩
  obtain rfl | rfl := eq_chTemp_or_eq_chStatus hchan
  case inl =>
    obtain rfl | rfl | rfl | rfl := eq_zero_or_one_or_two_or_three op
    · exact ⟨.openTemp byte, rfl, rfl⟩
    · exact ⟨.readTemp byte, rfl, rfl⟩
    · exact ⟨.writeTemp byte, rfl, rfl⟩
    · exact ⟨.releaseTemp byte, rfl, rfl⟩
  case inr =>
    obtain rfl | rfl | rfl | rfl := eq_zero_or_one_or_two_or_three op
    · exact ⟨.openStatus byte, rfl, rfl⟩
    · exact ⟨.readStatus byte, rfl, rfl⟩
    · by_cases hbyte : byte = 0x31
      · exact ⟨.writeStatusOn, rfl, hbyte ▸ rfl⟩
      · exact ⟨.writeStatusOff byte, (byteRequestsOff_iff byte).2 hbyte, rfl⟩
    · exact ⟨.releaseStatus byte, rfl, rfl⟩

theorem exists_encode_eq_ireqWord (code : BitVec 2) (ticks : Ticks) :
    ∃ i : Instr, i.wellFormed = true ∧ encode i = ireqWord code ticks := by
  obtain rfl | rfl | rfl | rfl := eq_zero_or_one_or_two_or_three code
  · exact ⟨.requestOn ticks, rfl, rfl⟩
  · exact ⟨.requestOff ticks, rfl, rfl⟩
  · exact ⟨.forceOff ticks, rfl, rfl⟩
  · exact ⟨.updateTemperature ticks, rfl, rfl⟩

theorem exists_encode_eq_lifeWord (code : BitVec 2) :
    ∃ i : Instr, i.wellFormed = true ∧ encode i = lifeWord code := by
  obtain rfl | rfl | rfl | rfl := eq_zero_or_one_or_two_or_three code
  · exact ⟨.init, rfl, rfl⟩
  · exact ⟨.stop, rfl, rfl⟩
  · exact ⟨.kill, rfl, rfl⟩
  · exact ⟨.shutdown, rfl, rfl⟩

/-- The encoder reaches every word that fits its format: no bit pattern is left without an operation (R73). -/
theorem exists_encode_eq {p : PortWord} (h : p.bits < 2 ^ p.format.width) :
    ∃ i : Instr, i.wellFormed = true ∧ encode i = p := by
  obtain ⟨format, n⟩ := p
  cases format
  case cmd =>
    obtain ⟨op, chan, byte, hword⟩ := exists_cmdWord h
    exact hword ▸ exists_encode_eq_cmdWord op chan byte
  case ireq =>
    obtain ⟨code, ticks, hword⟩ := exists_ireqWord h
    exact hword ▸ exists_encode_eq_ireqWord code ticks
  case frame =>
    have hn : n % 2 ^ 16 = n := Nat.mod_eq_of_lt h
    exact ⟨.sample (.ofNat 16 n), rfl, by rw [encode, BitVec.toNat_ofNat, hn]⟩
  case life =>
    have hn : n % 2 ^ 2 = n := Nat.mod_eq_of_lt h
    have hword : lifeWord (.ofNat 2 n) = ⟨.life, n⟩ := by rw [lifeWord, BitVec.toNat_ofNat, hn]
    exact hword ▸ exists_encode_eq_lifeWord (.ofNat 2 n)
  case sequencer =>
    obtain rfl : n = 0 := Nat.lt_one_iff.1 h
    exact ⟨.wdCycle, rfl, rfl⟩

/-- A word that decodes fits its format. -/
theorem fits_of_decode {p : PortWord} {i : Instr} (h : decode p = .instr i) : p.bits < 2 ^ p.format.width := by
  by_contra hwide
  rw [decode, if_neg hwide] at h
  cases h

/-- Settles O2: the word is the encoding of some well-formed operation, and by `decode_encode` that one is what the
decoder reads. -/
theorem encodeOfDecodeIsIdentity : Obligations.EncodeOfDecodeIsIdentity := by
  intro p i h
  obtain ⟨j, hwf, rfl⟩ := exists_encode_eq (fits_of_decode h)
  obtain rfl : j = i := by simpa [decode_encode hwf] using h
  exact ⟨hwf, rfl⟩

/-! ## The opcode table

A row of a host command tests bit 9, bits 11 to 8 or the whole word; a row of a request tests the code. -/

/-- BADCHAN's row tests the upper bit of the selector. -/
@[simp] theorem takes_bit9 (m : String) (op chan : BitVec 2) (byte : Byte) :
    Row.takes ⟨m, .cmd, 9, 1, 1⟩ (cmdWord op chan byte) = chanNamesNoChannel chan := by
  rw [Bool.eq_iff_iff, chanNamesNoChannel_iff]
  have := op.isLt; have := chan.isLt; have := byte.isLt
  simp only [Row.takes, cmdWord, beq_self_eq_true, Bool.true_and, beq_iff_eq]; omega

/-- The rows of one operation on one channel test the operation and the selector. -/
@[simp] theorem takes_bits11To8 (m : String) (v : Nat) (op chan : BitVec 2) (byte : Byte) :
    Row.takes ⟨m, .cmd, 8, 4, v⟩ (cmdWord op chan byte) = (op.toNat * 4 + chan.toNat == v) := by
  rw [Bool.eq_iff_iff]
  have := op.isLt; have := chan.isLt; have := byte.isLt
  simp only [Row.takes, cmdWord, beq_self_eq_true, Bool.true_and, beq_iff_eq]; omega

/-- WRITE.STATUS.ON's row tests the whole word: of the status writes it takes that of '1' only. -/
@[simp] theorem takes_wholeWord (m : String) (op chan : BitVec 2) (byte : Byte) :
    Row.takes ⟨m, .cmd, 0, 12, 0x931⟩ (cmdWord op chan byte) =
      (decide (op = 2 ∧ chan = Config.chStatus) && !byteRequestsOff byte) := by
  rw [Bool.eq_iff_iff]
  have := op.isLt; have := chan.isLt; have := byte.isLt
  simp [Row.takes, cmdWord, byteRequestsOff, Config.chStatus, ← BitVec.toNat_inj]; omega

/-- The rows of the requests test the code. -/
@[simp] theorem takes_bits13To12 (m : String) (v : Nat) (code : BitVec 2) (ticks : Ticks) :
    Row.takes ⟨m, .ireq, 12, 2, v⟩ (ireqWord code ticks) = (code.toNat == v) := by
  rw [Bool.eq_iff_iff]
  have := code.isLt; have := ticks.isLt
  simp only [Row.takes, ireqWord, beq_self_eq_true, Bool.true_and, beq_iff_eq]; omega

/-- The rows of the host commands take no request. -/
@[simp] theorem takes_ireqWord_of_cmd (m : String) (lo len v : Nat) (code : BitVec 2) (ticks : Ticks) :
    Row.takes ⟨m, .cmd, lo, len, v⟩ (ireqWord code ticks) = false := rfl

/-- The first row of the table that takes the word of a well-formed operation has its mnemonic (R64, R75). -/
theorem tableRow_encode {i : Instr} (h : i.wellFormed = true) :
    ∃ r, tableRow (encode i) = some r ∧ r.mnemonic = i.mnemonic := by
  cases i
  case badchan op chan byte =>
    have hchan : chanNamesNoChannel chan = true := h
    simp [encode, tableRow, opcodeTable, hchan, Instr.mnemonic]
  case writeStatusOff byte =>
    have hbyte : byteRequestsOff byte = true := h
    simp [encode, tableRow, opcodeTable, hbyte, Instr.mnemonic]
  case openTemp byte | readTemp byte | writeTemp byte | releaseTemp byte | openStatus byte | readStatus byte
    | releaseStatus byte | requestOn ticks | requestOff ticks | forceOff ticks | updateTemperature ticks =>
    simp [encode, tableRow, opcodeTable, Instr.mnemonic]
  case sample frame =>
    simp [encode, tableRow, opcodeTable, Row.takes, Nat.mod_one, Instr.mnemonic]
  case writeStatusOn | wdCycle | init | stop | kill | shutdown => exact ⟨_, rfl, rfl⟩

/-- Settles O3: the word is the encoding of a well-formed operation, which the decoder and the table both read. -/
theorem decoderFollowsOpcodeTable : Obligations.DecoderFollowsOpcodeTable := by
  intro p h
  obtain ⟨i, hwf, rfl⟩ := exists_encode_eq h
  obtain ⟨r, hrow, hname⟩ := tableRow_encode hwf
  exact ⟨r, i, hrow, decode_encode hwf, hname.symm⟩

end Sys2Proof

namespace Sys2Proof.Machine

open Sys2Proof

/-! ## Decimal digits and the temperature string -/

/-- Fuel above the number does not change its digits. -/
theorem decimalDigits_fuel_irrel : ∀ (f g n : Nat), n < f → n < g → decimalDigits f n = decimalDigits g n
  | f + 1, g + 1, n, hf, hg => by
    by_cases hn : n < 10
    · rw [decimalDigits, decimalDigits, if_pos hn, if_pos hn]
    · rw [decimalDigits, decimalDigits, if_neg hn, if_neg hn,
        decimalDigits_fuel_irrel f g (n / 10) (by omega) (by omega)]

theorem dec_of_lt_ten {n : Nat} (h : n < 10) : dec n = [digit n] := by
  rw [dec, decimalDigits, if_pos h]

theorem dec_of_ten_le {n : Nat} (h : 10 ≤ n) : dec n = dec (n / 10) ++ [digit (n % 10)] := by
  rw [dec, decimalDigits, if_neg (Nat.not_lt.2 h), dec,
    decimalDigits_fuel_irrel n (n / 10 + 1) (n / 10) (by omega) (by omega)]

/-- Settles O7: the fuel of `dec` is never used up, and the last digit is below ten. -/
theorem decimalDigitsFollowTheRule : Obligations.DecimalDigitsFollowTheRule := by
  intro n
  by_cases h : n < 10
  · rw [if_pos h, dec_of_lt_ten h, digit]
  · rw [if_neg h, dec_of_ten_le (Nat.not_lt.1 h), dec_of_lt_ten (Nat.mod_lt n (by decide) : n % 10 < 10)]

/-- The digits of a number are one more than its logarithm. -/
theorem length_dec (n : Nat) : (dec n).length = Nat.log 10 n + 1 := by
  induction n using Nat.strong_induction_on with
  | _ n ih =>
    by_cases h : n < 10
    · rw [dec_of_lt_ten h, Nat.log_of_lt h, List.length_singleton]
    · have hle : 10 ≤ n := Nat.not_lt.1 h
      rw [dec_of_ten_le hle, List.length_append, ih (n / 10) (by omega), List.length_singleton,
        Nat.log_of_one_lt_of_le (by decide) hle]

/-- Settles O8: the length is `Nat.log 10` of TEMP and 2 more, and a 12-bit TEMP has 4 digits at most. -/
theorem temperatureStringShape : Obligations.TemperatureStringShape := by
  intro t
  refine ⟨rfl, ?_⟩
  rw [temperatureString, List.length_append, length_dec, List.length_singleton]
  split_ifs with h10 h100 h1000
  · rw [Nat.log_of_lt h10]
  · rw [Nat.log_eq_of_pow_le_of_lt_pow (m := 1) (by omega) (by omega)]
  · rw [Nat.log_eq_of_pow_le_of_lt_pow (m := 2) (by omega) (by omega)]
  · rw [Nat.log_eq_of_pow_le_of_lt_pow (m := 3) (by omega) (by omega)]

/-! ## The reading in a frame -/

theorem toNat_readingOf (f : Frame) : (readingOf f).toNat = f.toNat / 8 % 4096 := by
  rw [readingOf_eq, BitVec.extractLsb'_toNat, Nat.shiftRight_eq_div_pow]

/-- The reading put into a frame is the one read from it, whatever the other bits are (R62). -/
theorem readingOf_frame (f15 : BitVec 1) (t : Ticks) (low3 : BitVec 3) :
    readingOf (BitVec.ofNat 16 (f15.toNat * 2 ^ 15 + t.toNat * 2 ^ 3 + low3.toNat)) = t := by
  apply BitVec.eq_of_toNat_eq
  rw [toNat_readingOf, BitVec.toNat_ofNat]
  have := f15.isLt; have := t.isLt; have := low3.isLt
  omega

/-- Settles O5: the reading as a slice, as a number, and read back from a frame built around it. -/
theorem readingIsFrameBits14To3 : Obligations.ReadingIsFrameBits14To3 :=
  fun frame => ⟨readingOf_eq frame, toNat_readingOf frame, readingOf_frame⟩

/-! ## Words at their bytes -/

/-- Settles O4: each worked word is the encoding of the operation R76 names, and each worked frame is built around the
reading 2000. -/
theorem workedEncodingsAreRead : Obligations.WorkedEncodingsAreRead :=
  ⟨decode_encode (i := .readTemp 0) rfl, decode_encode (i := .readStatus 0) rfl,
    decode_encode (i := .writeStatusOn) rfl, decode_encode (i := .writeStatusOff 0x30) rfl,
    decode_encode (i := .writeStatusOff 0x00) rfl, decode_encode (i := .releaseStatus 0) rfl,
    decode_encode (i := .openTemp 0) rfl, decode_encode (i := .badchan 1 2 0) rfl,
    decode_encode (i := .updateTemperature 2700) rfl,
    decode_encode (i := .kill) rfl, decode_encode (i := .wdCycle) rfl, decode_encode (i := .sample 0x3E80) rfl,
    readingOf_frame 0 2000 0, readingOf_frame 1 2000 7, by decide⟩

/-- Settles O6: the word of a status write is the encoding of the operation its byte selects. -/
theorem statusWriteDecodesByFirstByte : Obligations.StatusWriteDecodesByFirstByte := by
  intro byte rest
  refine ⟨?on, ?off, ?empty⟩
  case on => rintro rfl; exact decode_encode (i := .writeStatusOn) rfl
  case off => exact fun h => decode_encode (i := .writeStatusOff byte) ((byteRequestsOff_iff byte).2 h)
  case empty => exact decode_encode (i := .writeStatusOff 0x00) rfl

end Sys2Proof.Machine

namespace Sys2Proof.Machine

open Sys2Proof

/-! ## One micro-step of the serial engine in each phase

What `slMicroStep` answers in the phases that drive a line or hold, where the block owns the line (R81 to R83, R85 to
R87). SL_SAMPLE is `execWdCycle_sample`. -/

theorem slMicroStep_select {s : State} (hp : s.slph = .select) (ho : s.own.cs = true) :
    slMicroStep s = .next { s with cs := false, sr := 0, bitcnt := 0, slph := .rise } := by
  rw [slMicroStep, hp, slSelect, lineWrite_owned _ (by exact ho), andThen_next]; rfl

theorem slMicroStep_rise {s : State} (hp : s.slph = .rise) (ho : s.own.clk = true) :
    slMicroStep s = .next { s with clk := true, slph := .holdHi } := by
  rw [slMicroStep, hp, slRise, lineWrite_owned _ (by exact ho), andThen_next]; rfl

theorem slMicroStep_holdHi {s : State} (hp : s.slph = .holdHi) :
    slMicroStep s = .next { hold s.params.tHalfMin s with slph := .sample } := by
  rw [slMicroStep, hp, slHoldHi]

theorem slMicroStep_fall {s : State} (hp : s.slph = .fall) (ho : s.own.clk = true) :
    slMicroStep s = .next { s with clk := false, slph := .holdLo } := by
  rw [slMicroStep, hp, slFall, lineWrite_owned _ (by exact ho), andThen_next]; rfl

theorem slMicroStep_holdLo {s : State} (hp : s.slph = .holdLo) :
    slMicroStep s = .next { hold s.params.tHalfMin s with slph := if s.bitcnt = 16 then .deselect else .rise } := by
  have hlast : frameComplete s = decide (s.bitcnt = 16) := rfl
  rw [slMicroStep, hp, slHoldLo, hlast]
  simp only [decide_eq_true_eq]

theorem slMicroStep_deselect {s : State} (hp : s.slph = .deselect) (ho : s.own.cs = true) :
    slMicroStep s = .next { s with cs := true, result := s.sr.extractLsb' 3 12, slph := .idle } := by
  rw [slMicroStep, hp, slDeselect, lineWrite_owned _ (by exact ho), andThen_next, readingOf_eq]; rfl

/-- While the serial engine is busy a step of the watchdog in WD_SAMPLE is its next micro-step (R103). -/
theorem execWdCycle_busy {s : State} (hl : s.loaded = true) (hw : s.wdph = .sample) (hp : s.slph ≠ .idle) :
    exec .wdCycle s = slMicroStep (noResponse s) := by
  change execWdCycle s = _
  rw [execWdCycle, whenLoaded_loaded _ hl, watchdogStep, noResponse_wdph, hw, wdSample, if_neg (by exact hp)]

/-- Settles O28: in each phase the watchdog's step is the micro-step of that phase. -/
theorem serialMicroStepsFollowTheirRules : Obligations.SerialMicroStepsFollowTheirRules := by
  intro s hl hw hcs hclk
  have hstep (hp : s.slph ≠ .idle) : exec .wdCycle s = slMicroStep (noResponse s) := execWdCycle_busy hl hw hp
  refine ⟨?select, ?rise, ?holdHi, ?fall, ?holdLo, ?deselect⟩
  case select => exact fun hp => (hstep (by simp [hp])).trans (slMicroStep_select hp hcs)
  case rise => exact fun hp => (hstep (by simp [hp])).trans (slMicroStep_rise hp hclk)
  case holdHi =>
    exact fun hp => ⟨s.params.tHalfMin + Config.anyExcess s.fresh, s.fresh + 1, Nat.le_add_right _ _,
      (hstep (by simp [hp])).trans (slMicroStep_holdHi hp)⟩
  case fall => exact fun hp => (hstep (by simp [hp])).trans (slMicroStep_fall hp hclk)
  case holdLo =>
    exact fun hp => ⟨s.params.tHalfMin + Config.anyExcess s.fresh, s.fresh + 1, Nat.le_add_right _ _,
      (hstep (by simp [hp])).trans (slMicroStep_holdLo hp)⟩
  case deselect => exact fun hp => (hstep (by simp [hp])).trans (slMicroStep_deselect hp hcs)

/-! ## SAMPLE -/

/-- SAMPLE where the watchdog has not just started one is refused (R91). -/
theorem execSample_notStarted (f : Frame) {s : State} (hl : s.loaded = true)
    (h : s.wdph ≠ .sample ∨ s.slph ≠ .select) : execSample f s = .refused .sampleNotStarted := by
  have hst : ¬ sampleStarted s = true := by
    rw [sampleStarted, Bool.and_eq_true, beq_iff_eq, beq_iff_eq, not_and_or]
    exact h
  rw [execSample, whenLoaded_loaded _ hl, if_neg hst]

/-- Settles O32: one of the two phases WD_ARM leaves is missing, and SAMPLE tests both. -/
theorem sampleStartsOnlyFromTheWatchdog : Obligations.SampleStartsOnlyFromTheWatchdog :=
  fun frame _ hl h => execSample_notStarted frame hl h

/-- Settles O30: the levels SAMPLE presents are the ones its micro-steps take, which leaves the listed ones as they
were. -/
theorem sampleReconstructsTheReading : Obligations.SampleReconstructsTheReading := by
  intro frame s hl hw hp hcs hclk hdata
  obtain ⟨d, n, hd, hrun⟩ := slMicroSteps_sample frame s.sensor
    (noResponse { s with sensor := frameLevels frame ++ s.sensor }) hp hcs hclk hdata rfl
  refine ⟨d, n, hd, (execSample_started frame hl hw hp).trans ?_⟩
  rw [hrun, readingOf_eq]
  rfl

/-- The micro-steps of a whole sample end in a next state or in the fault of an unowned line (R222): the engine does
not come to rest before the last of them. -/
theorem slMicroSteps_sample_ne_refused (f : Frame) (rest : List Level) {s : State} (hp : s.slph = .select)
    (hsensor : s.sensor = frameLevels f ++ rest) (r : Refusal) : slMicroSteps sampleMicroSteps s ≠ .refused r := by
  by_cases ho : s.own.cs = true ∧ s.own.clk = true ∧ s.own.data = true
  case pos =>
    obtain ⟨hcs, hclk, hdata⟩ := ho
    obtain ⟨d, n, -, hrun⟩ := slMicroSteps_sample f rest s hp hcs hclk hdata hsensor
    rw [hrun]
    exact nofun
  case neg =>
    obtain ⟨l, hrun⟩ := slMicroSteps_unowned 78 s hp ho
    rw [show sampleMicroSteps = 78 + 4 from rfl, hrun]
    exact nofun

/-- The watchdog answers nobody, so what was handed back before its step does not matter (R70). -/
theorem step_noResponse {s : State} (hin : s.inbox = []) (hl : s.loaded = true) (hoff : s.wdph ≠ .off)
    (hterm : s.wdph ≠ .term) : step (noResponse s) = step s := by
  rw [step_watchdog hin hl hoff hterm, step_watchdog (by exact hin) (by exact hl) (by exact hoff) (by exact hterm)]
  rfl

/-- Settles O31: from SL_SELECT on the steps of the undisturbed watchdog are the micro-steps of SAMPLE, which presents
the same levels. -/
theorem sampleIsEightyTwoWatchdogSteps : Obligations.SampleIsEightyTwoWatchdogSteps := by
  intro frame rest s hin hl hw hp hsensor
  have hbusy : slMicroSteps sampleMicroSteps (noResponse s) ≠ .refused .serialEngineIdle :=
    slMicroSteps_sample_ne_refused frame rest (by exact hp) (by exact hsensor) _
  have hpresented : noResponse { s with sensor := frameLevels frame ++ rest } = noResponse s := by rw [← hsensor]
  calc run 82 s
      = run 82 (noResponse s) := by
        rw [run_succ, run_succ, step_noResponse hin hl (by simp [hw]) (by simp [hw])]
    _ = slMicroSteps sampleMicroSteps (noResponse s) := run_sampling sampleMicroSteps _ hin hl hw rfl hbusy
    _ = slMicroSteps sampleMicroSteps (noResponse { s with sensor := frameLevels frame ++ rest }) := by rw [hpresented]
    _ = exec (.sample frame) { s with sensor := rest } :=
        (execSample_started frame (s := { s with sensor := rest }) hl hw hp).symm

end Sys2Proof.Machine

namespace Sys2Proof.Machine

open Sys2Proof

/-! ## The conditions the watchdog tests -/

theorem stopRequested_iff (s : State) : stopRequested s = true ↔ s.stopflag = true ∨ s.kill = true := by
  rw [stopRequested, Bool.or_eq_true]

theorem stopRequested_eq_false {s : State} (hstop : s.stopflag = false) (hkill : s.kill = false) :
    stopRequested s = false := by
  rw [stopRequested, hstop, hkill]; rfl

theorem breach_iff (s : State) (reading : Ticks) :
    breach s reading = true ↔ s.params.hardLimit < reading.toNat ∧ s.heating = true := by
  rw [breach, aboveHardLimit, Bool.and_eq_true, decide_eq_true_eq]

/-- On a breach the heater does not stay On (R104). -/
theorem heating_of_breach {s : State} {reading : Ticks} (hb : breach s reading = true) :
    (s.heating && decide (reading.toNat ≤ s.params.hardLimit)) = false := by
  obtain ⟨habove, -⟩ := (breach_iff s reading).1 hb
  rw [decide_eq_false (Nat.not_le.2 habove), Bool.and_false]

/-- Without a breach the heater stays as it is: it is Off, or the reading is at or below the hard limit (R104). -/
theorem heating_of_no_breach {s : State} {reading : Ticks} (hb : ¬ breach s reading = true) :
    (s.heating && decide (reading.toNat ≤ s.params.hardLimit)) = s.heating := by
  cases hon : s.heating
  · rfl
  · have hbelow : reading.toNat ≤ s.params.hardLimit :=
      Nat.le_of_not_lt fun habove => hb ((breach_iff s reading).2 ⟨habove, hon⟩)
    rw [decide_eq_true hbelow, Bool.and_true]

/-! ## The watchdog's step in each phase

What `exec .wdCycle` answers in the phases outside a running sample (R101 to R105). -/

theorem execWdCycle_loaded {s : State} (hl : s.loaded = true) :
    exec .wdCycle s = watchdogStep (noResponse s) := by
  change execWdCycle s = _
  rw [execWdCycle, whenLoaded_loaded _ hl]

/-- Settles O34: WD_TOP's test is the disjunction of the two stop inputs. -/
theorem watchdogTopTestsTheStopInputs : Obligations.WatchdogTopTestsTheStopInputs := by
  intro s hl hw
  rw [execWdCycle_loaded hl, watchdogStep, noResponse_wdph, hw, wdTop]
  simp only [stopRequested_iff, noResponse]

theorem execWdCycle_arm {s : State} (hl : s.loaded = true) (hw : s.wdph = .arm) :
    exec .wdCycle s = .next { s with
      deadline := s.now + s.params.period, slph := .select, wdph := .sample, response := none } := by
  rw [execWdCycle_loaded hl, watchdogStep, noResponse_wdph, hw, wdArm]
  rfl

theorem execWdCycle_sampleDone {s : State} (hl : s.loaded = true) (hw : s.wdph = .sample) (hp : s.slph = .idle) :
    exec .wdCycle s = .next { s with wdph := .publish, response := none } := by
  rw [execWdCycle_loaded hl, watchdogStep, noResponse_wdph, hw, wdSample, if_pos (by exact hp)]
  rfl

/-- Settles O35: the step of WD_ARM, and the step of WD_SAMPLE once the serial engine is at rest. -/
theorem watchdogArmsAndLeavesTheSample : Obligations.WatchdogArmsAndLeavesTheSample :=
  fun _ hl => ⟨execWdCycle_arm hl, execWdCycle_sampleDone hl⟩

theorem execWdCycle_publish {s : State} (hl : s.loaded = true) (hw : s.wdph = .publish) :
    exec .wdCycle s = wdPublish (noResponse s) := by
  rw [execWdCycle_loaded hl, watchdogStep, noResponse_wdph, hw]

/-- Settles O36: the two ways WD_PUBLISH ends, told apart by the breach. -/
theorem watchdogPublishesAndCutsTheHeater : Obligations.WatchdogPublishesAndCutsTheHeater := by
  intro s hl hw
  rw [execWdCycle_publish hl hw]
  refine ⟨?cut, ?keep⟩
  case cut =>
    intro habove hon hown
    have hb : breach (noResponse s) s.result = true := (breach_iff _ _).2 ⟨habove, hon⟩
    rw [wdPublish_eq_next.2 (.inl ⟨hb, hown, rfl⟩), List.append_assoc]
    rfl
  case keep =>
    intro hkeep
    have hb : breach (noResponse s) s.result = false := by
      rw [← Bool.not_eq_true, breach_iff]
      rintro ⟨habove, hon⟩
      obtain hbelow | hoff := hkeep
      · exact Nat.not_lt.2 hbelow habove
      · exact Bool.false_ne_true (hoff.symm.trans hon)
    exact wdPublish_eq_next.2 (.inr ⟨hb, rfl⟩)

theorem execWdCycle_idle {s : State} (hl : s.loaded = true) (hw : s.wdph = .idle) :
    exec .wdCycle s = wdIdle (noResponse s) := by
  rw [execWdCycle_loaded hl, watchdogStep, noResponse_wdph, hw]

/-- Settles O37: the three branches of the idle-wait in their order; the yield lasts T_YIELD and a free excess. -/
theorem watchdogIdleWait : Obligations.WatchdogIdleWait := by
  intro s hl hw
  rw [execWdCycle_idle hl hw, wdIdle]
  refine ⟨?stopped, ?passed, ?yields⟩
  case stopped =>
    intro hstop
    rw [if_pos (by exact (stopRequested_iff s).2 hstop)]
    rfl
  case passed =>
    intro hstop hkill hpassed
    have hrun : stopRequested (noResponse s) = false := stopRequested_eq_false hstop hkill
    have hd : deadlinePassed (noResponse s) = true := decide_eq_true hpassed
    rw [hrun, if_neg Bool.false_ne_true, if_pos hd]
    rfl
  case yields =>
    intro hstop hkill hleft
    have hrun : stopRequested (noResponse s) = false := stopRequested_eq_false hstop hkill
    have hd : deadlinePassed (noResponse s) = false := decide_eq_false (Nat.not_le.2 hleft)
    rw [hrun, hd, if_neg Bool.false_ne_true, if_neg Bool.false_ne_true]
    exact ⟨s.params.tYield + Config.anyExcess s.fresh, s.fresh + 1, Nat.le_add_right _ _, rfl⟩

/-! ## A block that owns its lines always has the watchdog's step -/

/-- A busy serial engine that owns its lines has a micro-step in every phase (R18, R81 to R87). -/
theorem slMicroStep_answers {s : State} (ho : s.own = .all true) (hp : s.slph ≠ .idle) :
    ∃ t, slMicroStep s = .next t := by
  have hcs : s.own.cs = true := by rw [ho]; rfl
  have hclk : s.own.clk = true := by rw [ho]; rfl
  have hdata : s.own.data = true := by rw [ho]; rfl
  cases hs : s.slph with
  | idle => exact absurd hs hp
  | select => exact ⟨_, slMicroStep_select hs hcs⟩
  | rise => exact ⟨_, slMicroStep_rise hs hclk⟩
  | holdHi => exact ⟨_, slMicroStep_holdHi hs⟩
  | sample =>
    rw [slMicroStep, hs, slSample, lineRead_owned _ hdata]
    exact ⟨_, rfl⟩
  | fall => exact ⟨_, slMicroStep_fall hs hclk⟩
  | holdLo => exact ⟨_, slMicroStep_holdLo hs⟩
  | deselect => exact ⟨_, slMicroStep_deselect hs hcs⟩

/-- WD_PUBLISH of a block that owns the heat line has a step, breach or not (R104). -/
theorem wdPublish_answers {s : State} (ho : s.own.heat = true) : ∃ t, wdPublish s = .next t := by
  cases hb : breach s s.result
  · exact ⟨_, wdPublish_eq_next.2 (.inr ⟨hb, rfl⟩)⟩
  · exact ⟨_, wdPublish_eq_next.2 (.inl ⟨hb, ho, rfl⟩)⟩

/-- One visit of the idle-wait has a step whatever it finds (R105). -/
theorem wdIdle_answers (s : State) : ∃ t, wdIdle s = .next t := by
  unfold wdIdle
  split_ifs <;> exact ⟨_, rfl⟩

/-- The watchdog of a block that owns its lines has a step in every phase but WD_OFF and WD_TERM (R100). -/
theorem watchdogStep_answers {s : State} (ho : s.own = .all true) (hoff : s.wdph ≠ .off) (hterm : s.wdph ≠ .term) :
    ∃ t, watchdogStep s = .next t := by
  rw [watchdogStep]
  cases hw : s.wdph with
  | off => exact absurd hw hoff
  | top => exact ⟨_, rfl⟩
  | arm => exact ⟨_, rfl⟩
  | sample =>
    by_cases hp : s.slph = .idle
    · exact ⟨_, if_pos hp⟩
    · obtain ⟨t, ht⟩ := slMicroStep_answers ho hp
      exact ⟨t, (if_neg hp).trans ht⟩
  | publish => exact wdPublish_answers (by rw [ho]; rfl)
  | idle => exact wdIdle_answers s
  | term => exact absurd hw hterm

/-- In WD_TERM and in WD_OFF there is no watchdog step (R106). -/
theorem watchdogStep_ended {s : State} (h : s.wdph = .term ∨ s.wdph = .off) :
    watchdogStep s = .refused .watchdogHasNoStep := by
  rw [watchdogStep]
  obtain hw | hw := h <;> rw [hw]

theorem loadedSafe_of_safe {s : State} (hs : s.safe = true) (hl : s.loaded = true) : LoadedSafe s := by
  obtain ⟨hblock, -⟩ := (safe_iff s).1 hs
  exact hblock.whenLoaded hl

theorem execWdCycle_answers {s : State} (hs : LoadedSafe s) (hl : s.loaded = true) (hterm : s.wdph ≠ .term) :
    ∃ t, exec .wdCycle s = .next t := by
  rw [execWdCycle_loaded hl]
  exact watchdogStep_answers (by exact hs.owned) (by exact hs.hasWatchdog) (by exact hterm)

/-- Settles O38: a safe loaded block owns its lines and has a watchdog, so only WD_TERM and WD_OFF leave no step. -/
theorem watchdogHasAStepUntilItEnds : Obligations.WatchdogHasAStepUntilItEnds := by
  intro s hl
  refine ⟨?answers, ?ended⟩
  case answers => exact fun hs hterm => execWdCycle_answers (loadedSafe_of_safe hs hl) hl hterm
  case ended => exact fun hended => (execWdCycle_loaded hl).trans (watchdogStep_ended hended)

/-! ## What READ.STATUS shows -/

/-- Settles O56: a safe block is Off above the hard limit (R36), and the status channel shows HEATING (R144). -/
theorem statusReadsOffAboveTheHardLimit : Obligations.StatusReadsOffAboveTheHardLimit := by
  intro byte s t hs hl hx habove h
  have hoff : s.heating = false := by
    rw [← Bool.not_eq_true]
    exact fun hon => Nat.not_lt.2 ((loadedSafe_of_safe hs hl).limit hon) habove
  obtain ⟨-, ⟨hx', -⟩ | ⟨-, rfl⟩⟩ := (execReadStatus_eq_next (byte := byte)).1 h
  · rw [hx] at hx'; cases hx'
  · rw [hoff]; rfl

/-! ## One undisturbed cycle -/

/-- What sampling and publishing a frame leave, from the state in which the sample starts (R88, R104). -/
structure Published (frame : Frame) (rest : List Level) (s t : State) : Prop where
  wdph : t.wdph = .idle
  slph : t.slph = .idle
  temp : t.temp = frame.extractLsb' 3 12
  cs : t.cs = true
  clk : t.clk = false
  sensor : t.sensor = rest
  heating : t.heating = (s.heating && decide (t.temp.toNat ≤ s.params.hardLimit))
  deadline : t.deadline = s.deadline
  stopflag : t.stopflag = s.stopflag
  kill : t.kill = s.kill
  inbox : t.inbox = s.inbox
  loaded : t.loaded = s.loaded

/-- The undisturbed watchdog clocks a frame in, in 82 steps (R80, R88). -/
theorem run_samples (frame : Frame) (rest : List Level) {s : State} (hin : s.inbox = []) (hl : s.loaded = true)
    (ho : s.own = .all true) (hw : s.wdph = .sample) (hp : s.slph = .select)
    (hsensor : s.sensor = frameLevels frame ++ rest) :
    ∃ now n, run 82 s = .next { s with
      cs := true, clk := false, sr := frame, bitcnt := 16, result := frame.extractLsb' 3 12, slph := .idle,
      sensor := rest, now := now, fresh := n, response := none } := by
  obtain ⟨d, n, -, hsample⟩ := sampleReconstructsTheReading frame { s with sensor := rest } hl hw hp
    (by simp [ho]) (by simp [ho]) (by simp [ho])
  exact ⟨s.now + d, n, (sampleIsEightyTwoWatchdogSteps frame rest s hin hl hw hp hsensor).trans hsample⟩

/-- A sample and its publish, undisturbed, take 84 steps whatever the stop inputs are (R103, R104, R108). -/
theorem run_samples_and_publishes (frame : Frame) (rest : List Level) {s : State} (hin : s.inbox = [])
    (hl : s.loaded = true) (ho : s.own = .all true) (hw : s.wdph = .sample) (hp : s.slph = .select)
    (hsensor : s.sensor = frameLevels frame ++ rest) : ∃ t, run 84 s = .next t ∧ Published frame rest s t := by
  obtain ⟨now, n, hsample⟩ := run_samples frame rest hin hl ho hw hp hsensor
  rw [show 84 = 82 + 2 from rfl, run_add, hsample, andThen_next,
    run_publishes _ (by exact hin) (by exact hl) (by simp [ho]) (by exact hw) rfl]
  refine ⟨_, rfl, ?_⟩
  split_ifs with hb
  · exact ⟨rfl, rfl, rfl, rfl, rfl, rfl, (heating_of_breach (s := s) hb).symm, rfl, rfl, rfl, rfl, rfl⟩
  · exact ⟨rfl, rfl, rfl, rfl, rfl, rfl, (heating_of_no_breach (s := s) hb).symm, rfl, rfl, rfl, rfl, rfl⟩

/-- Without a stop input the watchdog starts a sample two steps from WD_TOP (R101, R102). -/
theorem run_arms {s : State} (hin : s.inbox = []) (hl : s.loaded = true) (hw : s.wdph = .top)
    (hstop : s.stopflag = false) (hkill : s.kill = false) :
    run 2 s = .next { s with
      deadline := s.now + s.params.period, slph := .select, wdph := .sample, response := none } := by
  rw [run_succ, step_top hin hl hw, andThen_next, stopRequested_eq_false hstop hkill, run_succ,
    step_arm (by exact hin) (by exact hl) (by rfl), andThen_next, run_zero]

/-- Settles O40: WD_TOP and WD_ARM start the sample, which is then clocked in and published. -/
theorem oneCyclePublishesTheFrame : Obligations.OneCyclePublishesTheFrame := by
  intro frame rest s hin hl ho hw hstop hkill hsensor
  obtain ⟨t, hrun, hpub⟩ := run_samples_and_publishes frame rest
    (s := { s with deadline := s.now + s.params.period, slph := .select, wdph := .sample, response := none })
    hin hl ho rfl rfl hsensor
  refine ⟨t, ?_, hpub.wdph, hpub.slph, hpub.temp, hpub.deadline, hpub.cs, hpub.clk, hpub.sensor, hpub.heating⟩
  rw [show 86 = 2 + 84 from rfl, run_add, run_arms hin hl hw hstop hkill, andThen_next, hrun]

/-- With no turn listed the running watchdog's step is WD_CYCLE (R100). -/
theorem step_eq_execWdCycle {s : State} (hin : s.inbox = []) (hl : s.loaded = true) (hoff : s.wdph ≠ .off)
    (hterm : s.wdph ≠ .term) : step s = exec .wdCycle s := by
  obtain ⟨hrunning, -⟩ := stepRunsTheWatchdogByItself s hin hl
  exact hrunning hoff hterm

/-- Settles O41: the stop inputs come through the sample and its publish unchanged, and the idle-wait finds them. -/
theorem pendingStopLetsTheSampleFinish : Obligations.PendingStopLetsTheSampleFinish := by
  intro frame rest s hin hl ho hw hp hstop hsensor
  obtain ⟨t, hrun, hpub⟩ := run_samples_and_publishes frame rest hin hl ho hw hp hsensor
  have htl : t.loaded = true := hpub.loaded.trans hl
  have hstep : step t = .next { t with wdph := .term, response := none } := by
    obtain ⟨hstopped, -, -⟩ := watchdogIdleWait t htl hpub.wdph
    rw [step_eq_execWdCycle (hpub.inbox.trans hin) htl (by simp [hpub.wdph]) (by simp [hpub.wdph])]
    exact hstopped (by rw [hpub.stopflag, hpub.kill]; exact hstop)
  refine ⟨{ t with wdph := .term, response := none }, ?_, rfl, hpub.temp, hpub.cs, hpub.clk, hpub.stopflag, hpub.kill,
    hpub.heating⟩
  rw [show 85 = 84 + 1 from rfl, run_add, hrun, andThen_next, run_succ, hstep, andThen_next, run_zero]

/-! ## The idle-wait -/

/-- Settles O42, by induction on the milliseconds left: each yield takes at least one of them. -/
theorem idleWaitReachesTheDeadline : Obligations.IdleWaitReachesTheDeadline := by
  intro s hin hl hw hstop hkill hyield
  induction hleft : s.deadline - s.now using Nat.strong_induction_on generalizing s with
  | _ left ih =>
    obtain ⟨-, hpassed, hyields⟩ := watchdogIdleWait s hl hw
    have hstep : step s = exec .wdCycle s := step_eq_execWdCycle hin hl (by simp [hw]) (by simp [hw])
    by_cases hd : s.deadline ≤ s.now
    · refine ⟨1, { s with wdph := .top, response := none }, Nat.le_add_left _ _, ?_, rfl, hd, rfl, rfl⟩
      rw [run_succ, hstep, hpassed hstop hkill hd, andThen_next, run_zero]
    · obtain ⟨d, n, hlong, hexec⟩ := hyields hstop hkill (Nat.lt_of_not_le hd)
      have hless : s.deadline - (s.now + d) < left := by omega
      obtain ⟨m, t, hm, hrun, htop, htime, htemp, hheating⟩ :=
        ih _ hless { s with now := s.now + d, fresh := n, response := none } hin hl hw hstop hkill hyield rfl
      refine ⟨m + 1, t, Nat.succ_le_succ (Nat.le_trans hm hless), ?_, htop, htime, htemp, hheating⟩
      rw [run_succ, hstep, hexec, andThen_next, hrun]

/-! ## Instructions of a block that owns its lines do not fault

The model's one fault is the access to a line that is not owned (R222). -/

/-- An outcome that is no fault. -/
def NoFault (o : Result) : Prop := ∀ f, o ≠ .fault f

theorem noFault_next (t : State) : NoFault (.next t) := fun _ => nofun

theorem noFault_refused (r : Refusal) : NoFault (.refused r) := fun _ => nofun

theorem noFault_of_answers {o : Result} (h : ∃ t, o = .next t) : NoFault o := by
  obtain ⟨t, rfl⟩ := h
  exact noFault_next t

theorem whenLoaded_noFault {s : State} {k : State → Result} (h : NoFault (k s)) : NoFault (whenLoaded s k) :=
  fun f hf => h f (whenLoaded_eq_fault.1 hf).2

theorem whenTransferred_noFault {s : State} {k : State → Result} (h : NoFault (k s)) :
    NoFault (whenTransferred s k) :=
  fun f hf => h f (whenTransferred_eq_fault.1 hf).2

theorem andThen_noFault {o : Result} (h : NoFault o) (g : State → State) :
    NoFault (andThen o fun t => .next (g t)) := by
  intro f hf
  obtain hf | ⟨u, -, hf⟩ := andThen_eq_fault.1 hf
  · exact h f hf
  · cases hf

theorem setHeater_noFault {s : State} (on : Bool) (e : Event) (ho : s.own.heat = true) :
    NoFault (setHeater on e s) :=
  noFault_of_answers ⟨_, setHeater_owned on e ho⟩

theorem requestOn_noFault {s : State} (ho : s.own.heat = true) : NoFault (requestOn s) := by
  rw [requestOn]
  split_ifs <;> exact setHeater_noFault _ _ ho

/-- SAMPLE of a block that owns its lines runs to its end or is not started (R90). -/
theorem execSample_noFault (frame : Frame) {s : State} (ho : s.own = .all true) : NoFault (execSample frame s) := by
  refine whenLoaded_noFault ?_
  split_ifs with hstarted
  · obtain ⟨-, hp⟩ : s.wdph = .sample ∧ s.slph = .select := by simpa [sampleStarted] using hstarted
    obtain ⟨d, n, -, hrun⟩ := slMicroSteps_sample frame s.sensor
      (noResponse { s with sensor := frameLevels frame ++ s.sensor }) hp (by simp [ho]) (by simp [ho]) (by simp [ho]) rfl
    exact noFault_of_answers ⟨_, hrun⟩
  · exact noFault_refused _

/-- A step of the watchdog of a block that owns its lines is a next state, or there is none (R100, R106). -/
theorem watchdogStep_noFault {s : State} (ho : s.own = .all true) : NoFault (watchdogStep s) := by
  by_cases hended : s.wdph = .term ∨ s.wdph = .off
  · rw [watchdogStep_ended hended]
    exact noFault_refused _
  · obtain ⟨hterm, hoff⟩ := not_or.1 hended
    exact noFault_of_answers (watchdogStep_answers ho hoff hterm)

/-- No instruction of a loaded block that owns its lines faults (R222). -/
theorem exec_noFault (i : Instr) {s : State} (hl : s.loaded = true) (ho : s.own = .all true) :
    NoFault (exec i s) := by
  have hheat : s.own.heat = true := by rw [ho]; rfl
  unfold exec
  cases i with
  | badchan => exact whenLoaded_noFault (noFault_next _)
  | openTemp => exact whenLoaded_noFault (noFault_next _)
  | openStatus => exact whenLoaded_noFault (noFault_next _)
  | readTemp => exact whenLoaded_noFault (whenTransferred_noFault (noFault_next _))
  | readStatus => exact whenLoaded_noFault (whenTransferred_noFault (noFault_next _))
  | writeTemp => exact whenLoaded_noFault (whenTransferred_noFault (noFault_next _))
  | writeStatusOn => exact whenLoaded_noFault (whenTransferred_noFault (andThen_noFault (requestOn_noFault hheat) _))
  | writeStatusOff =>
    exact whenLoaded_noFault (whenTransferred_noFault (andThen_noFault (setHeater_noFault _ _ hheat) _))
  | releaseTemp => exact whenLoaded_noFault (noFault_next _)
  | releaseStatus => exact whenLoaded_noFault (andThen_noFault (setHeater_noFault _ _ hheat) _)
  | requestOn => exact whenLoaded_noFault (andThen_noFault (requestOn_noFault hheat) _)
  | requestOff => exact whenLoaded_noFault (andThen_noFault (setHeater_noFault _ _ hheat) _)
  | forceOff => exact whenLoaded_noFault (andThen_noFault (setHeater_noFault _ _ hheat) _)
  | updateTemperature => exact whenLoaded_noFault (noFault_next _)
  | sample frame => exact execSample_noFault frame ho
  | wdCycle => exact whenLoaded_noFault (watchdogStep_noFault ho)
  | init =>
    rw [show execInit s = .refused .alreadyLoaded from if_pos hl]
    exact noFault_refused _
  | stop => exact whenLoaded_noFault (noFault_next _)
  | kill => exact whenLoaded_noFault (noFault_next _)
  | shutdown => exact whenLoaded_noFault (noFault_next _)

/-! ## Weak fairness of the watchdog -/

/-- The next step is a step of the watchdog, and it has a next state. -/
def WatchdogStepsNext (u : State) : Prop :=
  ∃ i side rest t, agentOf i = .watchdog ∧ step u = exec i { u with side := side, inbox := rest } ∧ step u = .next t

/-- The watchdog takes its step after at most `k` steps that leave its phases alone. -/
def WatchdogMovesWithin (k : Nat) (s : State) : Prop :=
  ∃ n u, n ≤ k ∧ run n s = .next u ∧ u.wdph = s.wdph ∧ u.slph = s.slph ∧ WatchdogStepsNext u

theorem WatchdogStepsNext.movesWithin {s : State} (h : WatchdogStepsNext s) (k : Nat) : WatchdogMovesWithin k s :=
  ⟨0, s, Nat.zero_le k, rfl, rfl, rfl, h⟩

/-- A step of another agent costs one step. -/
theorem WatchdogMovesWithin.after_step {k : Nat} {s t : State} (h : WatchdogMovesWithin k t) (hstep : step s = .next t)
    (hw : t.wdph = s.wdph) (hp : t.slph = s.slph) : WatchdogMovesWithin (k + 1) s := by
  obtain ⟨n, u, hn, hrun, huw, hup, hnext⟩ := h
  exact ⟨n + 1, u, Nat.succ_le_succ hn, by rw [run_succ, hstep, andThen_next, hrun], huw.trans hw, hup.trans hp, hnext⟩

/-- A turn that is passed over costs none. -/
theorem WatchdogMovesWithin.of_passed_over {k : Nat} {s : State} {rest : List Turn}
    (h : WatchdogMovesWithin k { s with inbox := rest }) (hpass : step s = step { s with inbox := rest }) :
    WatchdogMovesWithin (k + 1) s := by
  obtain ⟨n, u, hn, hrun, huw, hup, hnext⟩ := h
  cases n with
  | zero =>
    cases hrun
    obtain ⟨i, side, left, t, hi, hexec, ht⟩ := hnext
    exact WatchdogStepsNext.movesWithin ⟨i, side, left, t, hi, hpass.trans hexec, hpass.trans ht⟩ _
  | succ n =>
    have hrun' : run (n + 1) s = .next u := by rw [run_succ, hpass, ← run_succ, hrun]
    exact ⟨n + 1, u, Nat.le_succ_of_le hn, hrun', huw, hup, hnext⟩

/-- Before WD_TERM an instruction of another agent leaves the watchdog's phases alone, and the block stays loaded
(R185, R204). -/
theorem exec_keeps_phases {i : Instr} {s t : State} (h : exec i s = .next t) (hl : s.loaded = true)
    (hterm : s.wdph ≠ .term) (hi : agentOf i ≠ .watchdog) :
    t.loaded = true ∧ t.wdph = s.wdph ∧ t.slph = s.slph := by
  have hstays : t.loaded = true := by
    rw [← Bool.not_eq_false]
    intro hunloaded
    obtain ⟨-, hended, -⟩ := linesAreReleasedOnlyAfterTheJoin i s t h hl (.inr hunloaded)
    exact hterm hended
  refine ⟨hstays, ?_⟩
  cases exec_effect h with
  | sampled => exact absurd rfl hi
  | cycled => exact absurd rfl hi
  | initialised unloaded => exact absurd (hl.symm.trans unloaded) Bool.false_ne_true.symm
  | shutDown => exact absurd hstays Bool.false_ne_true
  | _ => exact ⟨rfl, rfl⟩

/-- Fewer listed turns leave a state safe. -/
theorem safe_of_inbox_tail {s : State} {turn : Turn} {rest : List Turn} (hs : s.safe = true)
    (hin : s.inbox = turn :: rest) : State.safe { s with inbox := rest } = true := by
  obtain ⟨hblock, hcross⟩ := (safe_iff s).1 hs
  rw [hin, List.all_cons, Bool.and_eq_true] at hcross
  exact (safe_iff _).2 ⟨hblock.withInputs s.side rest s.fresh, hcross.2⟩

/-- Settles O39, by induction on the listed turns: each is a step of the watchdog, a step of another agent that keeps
the watchdog's phases, or no step at all, and where none is left the watchdog moves by itself. -/
theorem watchdogMovesWithinTheListedTurns : Obligations.WatchdogMovesWithinTheListedTurns := by
  intro s hs hl hterm
  change WatchdogMovesWithin s.inbox.length s
  generalize hin : s.inbox = turns
  induction turns generalizing s with
  | nil =>
    have hsafe := loadedSafe_of_safe hs hl
    have hstep : step s = exec .wdCycle s := step_eq_execWdCycle hin hl hsafe.hasWatchdog hterm
    obtain ⟨t, ht⟩ := execWdCycle_answers hsafe hl hterm
    exact WatchdogStepsNext.movesWithin ⟨.wdCycle, s.side, s.inbox, t, rfl, hstep, hstep.trans ht⟩ _
  | cons turn rest ih =>
    have passed_over (hpass : step s = step { s with inbox := rest }) : WatchdogMovesWithin (rest.length + 1) s :=
      (ih _ (safe_of_inbox_tail hs hin) hl hterm rfl).of_passed_over hpass
    have moved {t : State} (hstep : step s = .next t) (htl : t.loaded = true) (hw : t.wdph = s.wdph)
        (hp : t.slph = s.slph) (hleft : t.inbox = rest) : WatchdogMovesWithin (rest.length + 1) s :=
      (ih t (everyStepKeepsTheBlockSafe s t hs hstep) htl (hw ▸ hterm) hleft).after_step hstep hw hp
    cases turn with
    | wait dt =>
      have hstep := step_wait hin
      rw [environmentStep_loaded_eq _ dt (by exact hl)] at hstep
      exact moved hstep hl rfl rfl rfl
    | present word side =>
      cases hd : decode word with
      | rejected e => exact passed_over (step_rejected hin hd)
      | instr i =>
        cases he : exec i (s.takeTurn side rest) with
        | refused r => exact passed_over (step_refused hin hd he)
        | fault f => exact absurd he (exec_noFault i (s := s.takeTurn side rest) hl (loadedSafe_of_safe hs hl).owned f)
        | next t =>
          have hstep : step s = exec i (s.takeTurn side rest) := step_present hin hd (by simp [he])
          by_cases hi : agentOf i = .watchdog
          · exact WatchdogStepsNext.movesWithin ⟨i, side, rest, t, hi, hstep, hstep.trans he⟩ _
          · obtain ⟨htl, hw, hp⟩ := exec_keeps_phases he hl hterm hi
            obtain ⟨-, hleft, -⟩ := exec_frame he
            exact moved (hstep.trans he) htl hw hp hleft

end Sys2Proof.Machine

namespace Sys2Proof.Machine

open Sys2Proof

/-! ## Turning the heater off

REQUEST_OFF and FORCE_OFF write the same (R122, R123); the four instructions that raise them differ in their answer. -/

/-- The state an instruction leaves that turns the heater Off and answers `r`. -/
def State.turnedOff (s : State) (r : Option Response) : State :=
  { s with heating := false, heat := false, events := s.events ++ [.turnedOff], response := r }

/-- REQUEST_OFF, or FORCE_OFF, which is the same operation, and then the end of the command. -/
theorem requestOff_then_eq_next {s t : State} {finish : State → State} :
    (∃ u, requestOff s = .next u ∧ t = finish u) ↔
      s.own.heat = true ∧
        t = finish { s with heating := false, heat := false, events := s.events ++ [.turnedOff] } := by
  simp only [requestOff_eq_next, and_assoc, exists_and_left, exists_eq_left]

theorem exec_requestOff_eq_next {ticks : Ticks} {s t : State} :
    exec (.requestOff ticks) s = .next t ↔
      s.loaded = true ∧ s.own.heat = true ∧ t = s.turnedOff (some okResponse) :=
  (execRequestOff_eq_next (ticks := ticks)).trans (and_congr_right fun _ => requestOff_then_eq_next)

theorem exec_forceOff_eq_next {ticks : Ticks} {s t : State} :
    exec (.forceOff ticks) s = .next t ↔ s.loaded = true ∧ s.own.heat = true ∧ t = s.turnedOff none :=
  (execForceOff_eq_next (ticks := ticks)).trans (and_congr_right fun _ => requestOff_then_eq_next)

theorem exec_releaseStatus_eq_next {byte : Byte} {s t : State} :
    exec (.releaseStatus byte) s = .next t ↔
      s.loaded = true ∧ s.own.heat = true ∧ t = s.turnedOff (some okResponse) :=
  (execReleaseStatus_eq_next (byte := byte)).trans (and_congr_right fun _ => requestOff_then_eq_next)

theorem exec_writeStatusOff_eq_next {byte : Byte} {s t : State} (hx : s.side.xferFault = false) :
    exec (.writeStatusOff byte) s = .next t ↔
      s.loaded = true ∧ s.own.heat = true ∧ t = s.turnedOff (some okResponse) := by
  refine (execWriteStatusOff_eq_next (byte := byte)).trans (and_congr_right fun _ => ?_)
  simp only [hx, Bool.false_eq_true, false_and, false_or, true_and]
  exact requestOff_then_eq_next

/-- Each instruction that turns the heater Off has one answer, the same from every state. -/
theorem turnsOff_eq_next {i : Instr} (hi : turnsOff i) :
    ∃ r, ∀ s t : State, s.side.xferFault = false →
      (exec i s = .next t ↔ s.loaded = true ∧ s.own.heat = true ∧ t = s.turnedOff r) := by
  obtain ⟨byte, rfl⟩ | ⟨byte, rfl⟩ | ⟨ticks, rfl⟩ | ⟨ticks, rfl⟩ := hi
  · exact ⟨some okResponse, fun _ _ hx => exec_writeStatusOff_eq_next hx⟩
  · exact ⟨some okResponse, fun _ _ _ => exec_releaseStatus_eq_next⟩
  · exact ⟨some okResponse, fun _ _ _ => exec_requestOff_eq_next⟩
  · exact ⟨none, fun _ _ _ => exec_forceOff_eq_next⟩

/-- Settles O24: turning Off keeps the block loaded and the heat line owned, so it can be done again, and its writes are
the ones already made. -/
theorem turningOffIsIdempotent : Obligations.TurningOffIsIdempotent := by
  intro i s t hi hx h
  obtain ⟨r, hoff⟩ := turnsOff_eq_next hi
  obtain ⟨hl, ho, rfl⟩ := (hoff s t hx).1 h
  have again : exec i (s.turnedOff r) = .next ((s.turnedOff r).turnedOff r) :=
    (hoff (s.turnedOff r) _ hx).2 ⟨hl, ho, rfl⟩
  exact ⟨rfl, rfl, _, again, rfl⟩

/-- Settles O18, by whether the transfer faults. -/
theorem writeStatusOffRequestsOff : Obligations.WriteStatusOffRequestsOff := by
  intro byte s hbyte hl ho
  refine ⟨decode_encode (i := .writeStatusOff byte) ((byteRequestsOff_iff byte).2 hbyte), ?_⟩
  cases hx : s.side.xferFault with
  | true => exact (execWriteStatusOff_eq_next (byte := byte)).2 ⟨hl, .inl ⟨hx, rfl⟩⟩
  | false => exact (exec_writeStatusOff_eq_next hx).2 ⟨hl, ho, rfl⟩

/-- Settles O20: RELEASE.STATUS has no transfer test. -/
theorem releaseStatusForcesOff : Obligations.ReleaseStatusForcesOff :=
  fun byte _ hl ho => ⟨decode_encode (i := .releaseStatus byte) rfl, exec_releaseStatus_eq_next.2 ⟨hl, ho, rfl⟩⟩

/-- Settles O22: neither request tests TEMP or the old state. -/
theorem requestOffAndForceOffTurnOff : Obligations.RequestOffAndForceOffTurnOff :=
  fun _ _ hl ho => ⟨exec_requestOff_eq_next.2 ⟨hl, ho, rfl⟩, exec_forceOff_eq_next.2 ⟨hl, ho, rfl⟩⟩

/-! ## Turning the heater on -/

/-- The state REQUEST_ON leaves, its answer included (R121). -/
def State.requestedOn (s : State) : State :=
  if s.params.softLimit < s.temp.toNat then
    { s with heating := false, heat := false, events := s.events ++ [.refused], response := some ⟨.refused, .none, []⟩ }
  else
    { s with heating := true, heat := true, events := s.events ++ [.turnedOn], response := some ⟨.ok, .none, []⟩ }

/-- A block that owns the heat line always answers REQUEST_ON. -/
theorem requestOn_answers {s : State} (ho : s.own.heat = true) :
    ∃ u, requestOn s = .next u ∧ s.requestedOn = respond ⟨requestOnStatus s, .none, []⟩ u := by
  obtain ⟨u, hu⟩ : ∃ u, requestOn s = .next u := ⟨_, requestOn_eq_next.2 ⟨ho, rfl⟩⟩
  refine ⟨u, hu, ?_⟩
  obtain ⟨-, ⟨habove, ht⟩ | ⟨hbelow, ht⟩⟩ := requestOn_answered hu rfl
  · rw [ht, State.requestedOn, if_pos habove]
  · rw [ht, State.requestedOn, if_neg (Nat.not_lt.2 hbelow)]

/-- Settles O21 by REQUEST_ON's answer. -/
theorem requestOnFollowsTheSoftLimit : Obligations.RequestOnFollowsTheSoftLimit :=
  fun ticks _ hl ho => (execRequestOn_eq_next (ticks := ticks)).2 ⟨hl, requestOn_answers ho⟩

/-- Settles O17, by whether the transfer faults. -/
theorem writeStatusOnRequestsOn : Obligations.WriteStatusOnRequestsOn := by
  intro s hl ho
  refine ⟨decode_encode (i := .writeStatusOn) rfl, ?_⟩
  cases hx : s.side.xferFault with
  | true => exact execWriteStatusOn_eq_next.2 ⟨hl, .inl ⟨hx, rfl⟩⟩
  | false => exact execWriteStatusOn_eq_next.2 ⟨hl, .inr ⟨hx, requestOn_answers ho⟩⟩

/-- Settles O23: the reading is stored in any loaded block. -/
theorem updateTemperatureStoresTheReading : Obligations.UpdateTemperatureStoresTheReading :=
  fun ticks _ hl => (execUpdateTemperature_eq_next (ticks := ticks)).2 ⟨hl, rfl⟩

/-! ## What leaves the heater Off where it was Off -/

/-- HEATING and HEAT are On after only where they were On before. -/
def TurnsNothingOn (s t : State) : Prop :=
  (t.heating = true → s.heating = true) ∧ (t.heat = true → s.heat = true)

theorem TurnsNothingOn.of_eq {s t : State} (hheating : t.heating = s.heating) (hheat : t.heat = s.heat) :
    TurnsNothingOn s t := by
  simp [TurnsNothingOn, hheating, hheat]

theorem TurnsNothingOn.of_off {s t : State} (hheating : t.heating = false) (hheat : t.heat = false) :
    TurnsNothingOn s t := by
  simp [TurnsNothingOn, hheating, hheat]

/-- The watchdog turns nothing on: WD_PUBLISH can only cut the heater (R104), and its other steps do not write it. -/
theorem watchdogStep_turnsNothingOn {s t : State} (h : watchdogStep s = .next t) : TurnsNothingOn s t := by
  rcases watchdogStep_cases h with ⟨-, rfl⟩ | ⟨-, rfl⟩ | ⟨-, -, rfl⟩ | ⟨-, -, hmicro⟩ | ⟨-, hpublish⟩ | ⟨-, -, rfl⟩ |
    ⟨-, -, -, rfl⟩ | ⟨-, -, -, rfl⟩
  · exact .of_eq rfl rfl
  · exact .of_eq rfl rfl
  · exact .of_eq rfl rfl
  · obtain ⟨-, -, -, -, -, -, hheating, hheat, -⟩ := slMicroStep_keeps hmicro
    exact .of_eq hheating hheat
  · obtain ⟨-, -, rfl⟩ | ⟨-, rfl⟩ := wdPublish_eq_next.1 hpublish
    · exact .of_off rfl rfl
    · exact .of_eq rfl rfl
  · exact .of_eq rfl rfl
  · exact .of_eq rfl rfl
  · exact .of_eq rfl rfl

/-- An instruction is a request for On at or below the soft limit, or it turns nothing on. -/
theorem exec_asksOn_or_turnsNothingOn {i : Instr} {s t : State} (h : exec i s = .next t) :
    (asksOn i ∧ s.temp.toNat ≤ s.params.softLimit) ∨ TurnsNothingOn s t := by
  rcases exec_cases h with ⟨-, -, r, rfl, -⟩ | ⟨-, -, -, -, rfl⟩ | ⟨-, -, hasks, hbelow, -⟩ | ⟨-, -, -, r, -, rfl⟩ |
    ⟨-, k, -, rfl⟩ | ⟨-, f, -, hsample⟩ | ⟨-, -, hcycle⟩ | ⟨-, -, -, rfl⟩ | ⟨-, -, -, o, rfl⟩ | ⟨-, -, rfl⟩ |
    ⟨-, -, rfl⟩ | ⟨-, -, -, -, rfl⟩ | ⟨-, -, -, rfl⟩
  · exact .inr (.of_eq rfl rfl)
  · exact .inr (.of_off rfl rfl)
  · exact .inl ⟨hasks, hbelow⟩
  · exact .inr (.of_off rfl rfl)
  · exact .inr (.of_eq rfl rfl)
  · obtain ⟨-, -, -, heq, -⟩ := execSample_frame hsample
    exact .inr (.of_eq (by rw [heq]) (by rw [heq]))
  · exact .inr (watchdogStep_turnsNothingOn (s := noResponse s) hcycle)
  · exact .inr (.of_off rfl rfl)
  · exact .inr (.of_eq rfl rfl)
  · exact .inr (.of_eq rfl rfl)
  · exact .inr (.of_eq rfl rfl)
  · exact .inr (.of_eq rfl rfl)
  · exact .inr (.of_eq rfl rfl)

/-- Settles O26: an instruction that is no honoured request leaves HEATING and HEAT Off where they were Off. -/
theorem onlyAnHonouredRequestTurnsOn : Obligations.OnlyAnHonouredRequestTurnsOn := by
  intro i s t h
  obtain honoured | ⟨hheating, hheat⟩ := exec_asksOn_or_turnsNothingOn h
  · exact ⟨fun _ _ => honoured, fun _ _ => honoured⟩
  · exact ⟨fun hoff hon => absurd (hoff.symm.trans (hheating hon)) Bool.false_ne_true,
      fun hoff hon => absurd (hoff.symm.trans (hheat hon)) Bool.false_ne_true⟩

end Sys2Proof.Machine

namespace Sys2Proof.Machine

open Sys2Proof

/-! ## Commands that write only the response

READ, WRITE.TEMP, OPEN, RELEASE.TEMP and every command on an invalid selector leave each register as it is. Of these
READ and WRITE.TEMP test the transfer (R64, R151). -/

/-- The two answers of a command that moves data and writes no register, as one next state. -/
theorem raiseFault_or_respondOk_iff {s t : State} {data : List Byte} :
    (s.side.xferFault = true ∧ t = raiseFault .xfer s) ∨ (s.side.xferFault = false ∧ t = respondOk data s) ↔
      t = { s with response := some (if s.side.xferFault then ⟨.fault, .xfer, []⟩ else ⟨.ok, .none, data⟩) } := by
  cases s.side.xferFault with
  | true => simp [raiseFault, respond]
  | false => simp [respondOk, respond]

/-- An answer with the status string, by the heater state (R69). -/
theorem okResponse_statusString (heating : Bool) :
    (⟨.ok, .none, statusString heating⟩ : Response) =
      if heating then ⟨.ok, .none, [0x31, 0x0A]⟩ else ⟨.ok, .none, [0x30, 0x0A]⟩ := by
  cases heating <;> rfl

/-- Settles O12: bit 1 of the selector is what makes the word a BADCHAN, and BADCHAN has no transfer test. -/
theorem badChannelFaultsWithoutStateChange : Obligations.BadChannelFaultsWithoutStateChange :=
  fun op chan byte _ hl hchan =>
    ⟨decode_encode (i := .badchan op chan byte) hchan,
      (execBadchan_eq_next (op := op) (chan := chan) (byte := byte)).2 ⟨hl, rfl⟩⟩

/-- Settles O13: neither OPEN has a transfer test. -/
theorem openIsANoOp : Obligations.OpenIsANoOp :=
  fun byte _ hl =>
    ⟨decode_encode (i := .openTemp byte) rfl, decode_encode (i := .openStatus byte) rfl,
      (execOpenTemp_eq_next (byte := byte)).2 ⟨hl, rfl⟩, (execOpenStatus_eq_next (byte := byte)).2 ⟨hl, rfl⟩⟩

/-- Settles O14: the data of READ.TEMP is the temperature string. -/
theorem readTempReturnsTheReading : Obligations.ReadTempReturnsTheReading :=
  fun byte _ hl =>
    ⟨decode_encode (i := .readTemp byte) rfl,
      (execReadTemp_eq_next (byte := byte)).2 ⟨hl, raiseFault_or_respondOk_iff.2 rfl⟩⟩

/-- Settles O15: the data of READ.STATUS is the status string, which depends on HEATING alone. -/
theorem readStatusReturnsTheHeaterState : Obligations.ReadStatusReturnsTheHeaterState := by
  intro byte s hl
  refine ⟨decode_encode (i := .readStatus byte) rfl, ?_⟩
  rw [← okResponse_statusString]
  exact (execReadStatus_eq_next (byte := byte)).2 ⟨hl, raiseFault_or_respondOk_iff.2 rfl⟩

/-- Settles O16: WRITE.TEMP answers no data and writes nothing. -/
theorem writeTempHasNoEffect : Obligations.WriteTempHasNoEffect :=
  fun byte _ hl =>
    ⟨decode_encode (i := .writeTemp byte) rfl,
      (execWriteTemp_eq_next (byte := byte)).2 ⟨hl, raiseFault_or_respondOk_iff.2 rfl⟩⟩

/-- Settles O19: RELEASE.TEMP has no transfer test. -/
theorem releaseTempHasNoEffect : Obligations.ReleaseTempHasNoEffect :=
  fun byte _ hl => ⟨decode_encode (i := .releaseTemp byte) rfl, (execReleaseTemp_eq_next (byte := byte)).2 ⟨hl, rfl⟩⟩

end Sys2Proof.Machine

namespace Sys2Proof.Machine

open Sys2Proof

/-! ## A breach against a concurrent request for On -/

/-- The two instructions that ask for the heater On do the same where the transfer is good (R121, R146). -/
theorem exec_asksOn {i : Instr} {s : State} (hi : asksOn i) (hl : s.loaded = true) (ho : s.own.heat = true)
    (hx : s.side.xferFault = false) : exec i s = .next s.requestedOn := by
  obtain rfl | ⟨ticks, rfl⟩ := hi
  · exact execWriteStatusOn_eq_next.2 ⟨hl, .inr ⟨hx, requestOn_answers ho⟩⟩
  · exact (execRequestOn_eq_next (ticks := ticks)).2 ⟨hl, requestOn_answers ho⟩

/-- REQUEST_ON writes HEATING and HEAT with one level, a strobe and its answer. -/
theorem State.requestedOn_frame (s : State) :
    ∃ on events response, s.requestedOn = { s with heating := on, heat := on, events, response } := by
  unfold State.requestedOn
  split_ifs
  · exact ⟨false, _, _, rfl⟩
  · exact ⟨true, _, _, rfl⟩

/-- Above the soft limit REQUEST_ON leaves the heater Off, whatever it was (R121). -/
theorem State.requestedOn_aboveSoftLimit {s : State} (h : s.params.softLimit < s.temp.toNat) :
    s.requestedOn.heating = false ∧ s.requestedOn.heat = false ∧ s.requestedOn.temp = s.temp := by
  rw [State.requestedOn, if_pos h]
  exact ⟨rfl, rfl, rfl⟩

/-- WD_PUBLISH of a reading above the hard limit ends Off (R104). HEAT is written only where the heater was On. -/
theorem execWdCycle_publish_aboveHardLimit {s : State} (hl : s.loaded = true) (hw : s.wdph = .publish)
    (ho : s.own.heat = true) (habove : s.params.hardLimit < s.result.toNat) :
    ∃ events, exec .wdCycle s = .next { s with
      temp := s.result, heating := false, heat := s.heat && !s.heating, wdph := .idle, events, response := none } := by
  obtain ⟨cut, keep⟩ := watchdogPublishesAndCutsTheHeater s hl hw
  cases hon : s.heating with
  | true => exact ⟨s.events ++ [.turnedOff, .overTemp], by rw [cut habove hon ho]; simp⟩
  | false => exact ⟨s.events, by rw [keep (.inr hon)]; simp [hon]⟩

/-- Settles O25: the breach cuts what REQUEST_ON may have turned on, and after the breach TEMP is above the hard limit,
and so above the soft limit, which REQUEST_ON tests. -/
theorem breachBeatsConcurrentRequestOn : Obligations.BreachBeatsConcurrentRequestOn := by
  intro i s hi hp hl ho hx hw habove
  refine ⟨?requestFirst, ?breachFirst⟩
  case requestFirst =>
    have hrequest := exec_asksOn hi hl ho hx
    obtain ⟨on, events, response, heq⟩ := s.requestedOn_frame
    rw [heq] at hrequest
    obtain ⟨_, hcycle⟩ := execWdCycle_publish_aboveHardLimit
      (s := { s with heating := on, heat := on, events, response }) hl hw ho habove
    exact ⟨_, _, hrequest, hcycle, rfl, Bool.and_not_self on, rfl⟩
  case breachFirst =>
    obtain ⟨events, hcycle⟩ := execWdCycle_publish_aboveHardLimit hl hw ho habove
    have hsoft : s.params.softLimit < s.result.toNat := Nat.lt_of_le_of_lt (softLimit_le_hardLimit hp) habove
    exact ⟨_, _, hcycle, exec_asksOn hi hl ho hx, State.requestedOn_aboveSoftLimit hsoft⟩

/-! ## Fault responses -/

/-- INIT of an unloaded block with a busy line gives every line back (R174, R205). -/
theorem execInit_busy {s : State} (hl : s.loaded = false) (ho : s.own = .all false) (hb : s.side.busy ≠ .all false) :
    execInit s = .next (raiseFault .noLine s) := by
  rw [execInit, if_neg (by simp [hl]), acquireLines_some_busy hb ho]
  rfl

theorem execInit_loaded {s : State} (hl : s.loaded = true) : execInit s = .refused .alreadyLoaded := by
  rw [execInit, if_pos hl]

/-- Settles O46: the failure path of INIT, and its first test. -/
theorem failedInitChangesNothing : Obligations.FailedInitChangesNothing :=
  fun _ => ⟨execInit_busy, execInit_loaded⟩

/-- Settles O55: a fault response comes from a host command, which writes the response only, or from an INIT that failed,
which in a safe block gives back all it acquired. The response of every other instruction is no fault. -/
theorem faultResponsesArePrecise : Obligations.FaultResponsesArePrecise := by
  intro i s t c d hs h hr
  rcases exec_cases h with ⟨-, -, r, rfl, hfault⟩ | ⟨-, -, -, -, rfl⟩ | ⟨-, -, -, -, rfl⟩ |
    ⟨-, -, -, r, rfl | rfl, rfl⟩ | ⟨-, k, -, rfl⟩ | ⟨-, f, -, hsample⟩ | ⟨-, -, hcycle⟩ | ⟨-, -, -, rfl⟩ |
    ⟨hl, rfl, hb, -⟩ | ⟨-, -, rfl⟩ | ⟨-, -, rfl⟩ | ⟨-, -, -, -, rfl⟩ | ⟨-, -, -, rfl⟩
  · cases hr
    obtain ⟨hcode, hdata⟩ := hfault rfl
    cases hdata
    exact ⟨rfl, rfl, hcode⟩
  · cases hr
  · cases hr
  · cases hr
  · cases hr
  · cases hr
  · obtain ⟨-, -, -, heq, -⟩ := execSample_frame hsample
    rw [heq] at hr
    cases hr
  · obtain ⟨-, -, -, -, -, -, -, -, hresponse, -⟩ := watchdogStep_frame hcycle
    rw [hresponse] at hr
    cases hr
  · cases hr
  · obtain ⟨hblock, -⟩ := (safe_iff s).1 hs
    have ho : s.own = .all false := (hblock.whenUnloaded hl).released
    obtain rfl := next_eq_next.1 ((execInit_busy hl ho hb).symm.trans h)
    cases hr
    exact ⟨rfl, rfl, nofun⟩
  · cases hr
  · cases hr
  · cases hr
  · cases hr

/-! ## What each role leaves alone (R185) -/

/-- A client's command writes the heater, the trace of strobes and the response, and nothing else. -/
theorem exec_controlPath_frame {i : Instr} {s t : State} (h : exec i s = .next t) (hi : agentOf i = .controlPath) :
    ∃ heating heat events response, t = { s with heating, heat, events, response } := by
  cases exec_effect h with
  | answered => exact ⟨_, _, _, _, rfl⟩
  | heaterSet => exact ⟨_, _, _, _, rfl⟩
  | _ => cases hi

theorem eq_of_agentOf_lifecycle {i : Instr} (hi : agentOf i = .lifecycle) :
    i = .init ∨ i = .stop ∨ i = .kill ∨ i = .shutdown := by
  cases i with
  | init => exact .inl rfl
  | stop => exact .inr (.inl rfl)
  | kill => exact .inr (.inr (.inl rfl))
  | shutdown => exact .inr (.inr (.inr rfl))
  | _ => cases hi

theorem eq_of_agentOf_watchdog {i : Instr} (hi : agentOf i = .watchdog) : (∃ f, i = .sample f) ∨ i = .wdCycle := by
  cases i with
  | sample f => exact .inl ⟨f, rfl⟩
  | wdCycle => exact .inr rfl
  | _ => cases hi

/-- A lifecycle command other than INIT writes the stop inputs, the lifecycle's registers and the response. -/
theorem exec_lifecycle_frame {i : Instr} {s t : State} (h : exec i s = .next t) (hi : agentOf i = .lifecycle)
    (hinit : i ≠ .init) :
    t = { s with stopflag := t.stopflag, kill := t.kill, own := t.own, wdph := t.wdph, loaded := t.loaded,
                 shutdownRequested := t.shutdownRequested, response := t.response } := by
  obtain rfl | rfl | rfl | rfl := eq_of_agentOf_lifecycle hi
  · exact absurd rfl hinit
  · obtain ⟨-, rfl⟩ := execStop_eq_next.1 h
    rfl
  · obtain ⟨-, rfl⟩ := execKill_eq_next.1 h
    rfl
  · obtain ⟨-, ⟨-, -, rfl⟩ | ⟨-, rfl⟩⟩ := execShutdown_eq_next.1 h <;> rfl

/-- The watchdog writes neither stop input nor reservation and turns nothing on, in one step as in a whole SAMPLE. -/
theorem exec_watchdog_frame {i : Instr} {s t : State} (h : exec i s = .next t) (hi : agentOf i = .watchdog) :
    t.stopflag = s.stopflag ∧ t.kill = s.kill ∧ t.own = s.own ∧ t.loaded = s.loaded ∧
    t.shutdownRequested = s.shutdownRequested ∧ TurnsNothingOn s t := by
  obtain ⟨f, rfl⟩ | rfl := eq_of_agentOf_watchdog hi
  · obtain ⟨-, -, -, heq, -⟩ := execSample_frame h
    rw [heq]
    exact ⟨rfl, rfl, rfl, rfl, rfl, .of_eq rfl rfl⟩
  · obtain ⟨-, hcycle⟩ := execWdCycle_eq_next.1 h
    obtain ⟨hstop, hkill, hown, hloaded, -, -, -, hrequest, -⟩ := watchdogStep_frame hcycle
    exact ⟨hstop, hkill, hown, hloaded, hrequest, watchdogStep_turnsNothingOn (s := noResponse s) hcycle⟩

/-- Settles O59: the frame of each role. -/
theorem rolesKeepToTheirRights : Obligations.RolesKeepToTheirRights := by
  intro i s t h
  refine ⟨?client, ?lifecycle, ?watchdog⟩
  case client =>
    intro hi
    obtain ⟨_, _, _, _, rfl⟩ := exec_controlPath_frame h hi
    simp
  case lifecycle =>
    intro hi hinit
    rw [exec_lifecycle_frame h hi hinit]
    simp
  case watchdog =>
    intro hi
    obtain ⟨hstop, hkill, hown, hloaded, hrequest, hheating, -⟩ := exec_watchdog_frame h hi
    exact ⟨hstop, hkill, hown, hloaded, hrequest, fun hoff => by simpa [hoff] using hheating⟩

/-! ## Who pulses a strobe (R190) -/

/-- Of the watchdog's steps WD_PUBLISH alone pulses a strobe, and only on a breach (R104). -/
theorem watchdogStep_events {s t : State} (h : watchdogStep s = .next t) :
    t.events = s.events ∨
    (t.events = s.events ++ [.turnedOff, .overTemp] ∧ s.wdph = .publish ∧ s.heating = true ∧
      s.params.hardLimit < s.result.toNat) := by
  rcases watchdogStep_cases h with ⟨-, rfl⟩ | ⟨-, rfl⟩ | ⟨-, -, rfl⟩ | ⟨-, -, hmicro⟩ | ⟨hw, hpublish⟩ | ⟨-, -, rfl⟩ |
    ⟨-, -, -, rfl⟩ | ⟨-, -, -, rfl⟩
  · exact .inl rfl
  · exact .inl rfl
  · exact .inl rfl
  · obtain ⟨-, -, -, -, -, -, -, -, -, -, -, -, hevents, -⟩ := slMicroStep_keeps hmicro
    exact .inl hevents
  · obtain ⟨hbreach, -, rfl⟩ | ⟨-, rfl⟩ := wdPublish_eq_next.1 hpublish
    · obtain ⟨habove, hon⟩ := (breach_iff _ _).1 hbreach
      exact .inr ⟨List.append_assoc .., hw, hon, habove⟩
    · exact .inl rfl
  · exact .inl rfl
  · exact .inl rfl
  · exact .inl rfl

/-- Settles O60: a request pulses the strobe of its answer, a breach its two, and nothing else pulses one. -/
theorem strobesComeFromTheirOperations : Obligations.StrobesComeFromTheirOperations := by
  intro i s t h
  rcases exec_cases h with ⟨-, -, r, rfl, -⟩ | ⟨-, -, hasks, -, rfl⟩ | ⟨-, -, hasks, -, rfl⟩ | ⟨-, -, hoff, r, -, rfl⟩ |
    ⟨-, k, -, rfl⟩ | ⟨-, f, -, hsample⟩ | ⟨-, rfl, hcycle⟩ | ⟨-, -, -, rfl⟩ | ⟨-, -, -, o, rfl⟩ | ⟨-, -, rfl⟩ |
    ⟨-, -, rfl⟩ | ⟨-, -, -, -, rfl⟩ | ⟨-, -, -, rfl⟩
  · exact .inl rfl
  · exact .inr (.inr (.inl ⟨rfl, rfl, hasks⟩))
  · exact .inr (.inl ⟨rfl, rfl, hasks⟩)
  · exact .inr (.inr (.inr (.inl ⟨rfl, rfl, hoff⟩)))
  · exact .inl rfl
  · obtain ⟨-, -, -, heq, -⟩ := execSample_frame hsample
    exact .inl (by rw [heq])
  · obtain hevents | ⟨hevents, hw, hon, habove⟩ := watchdogStep_events hcycle
    · exact .inl hevents
    · exact .inr (.inr (.inr (.inr ⟨hevents, rfl, hw, hon, habove⟩)))
  · exact .inl rfl
  · exact .inl rfl
  · exact .inl rfl
  · exact .inl rfl
  · exact .inl rfl
  · exact .inl rfl

end Sys2Proof.Machine

namespace Sys2Proof.Machine

open Sys2Proof

/-! ## Commands of an unloaded block, and the stop inputs -/

/-- Settles O49: every instruction but INIT tests LOADED first. -/
theorem unloadedBlockRefusesEverythingButInit : Obligations.UnloadedBlockRefusesEverythingButInit := by
  intro i s hl hinit
  cases i with
  | init => exact absurd rfl hinit
  | _ => unfold exec; exact whenLoaded_unloaded _ hl

/-- Settles O47: each writes its bit and answers OK. -/
theorem stopAndKillSetTheirBits : Obligations.StopAndKillSetTheirBits :=
  fun _ hl => ⟨execStop_eq_next.2 ⟨hl, rfl⟩, execKill_eq_next.2 ⟨hl, rfl⟩⟩

/-- Settles O48: which step is taken depends on the request and on WD_TERM together. -/
theorem shutdownRequestsThenCompletes : Obligations.ShutdownRequestsThenCompletes := by
  intro s hl
  refine ⟨?requests, ?completes⟩
  case requests =>
    intro hwaits
    have hnot : ¬(s.shutdownRequested = true ∧ s.wdph = .term) := by
      rintro ⟨hreq, hterm⟩
      obtain hrunning | hfirst := hwaits
      · exact hrunning hterm
      · exact Bool.false_ne_true (hfirst.symm.trans hreq)
    exact execShutdown_eq_next.2 ⟨hl, .inr ⟨hnot, rfl⟩⟩
  case completes => exact fun hterm hreq => execShutdown_eq_next.2 ⟨hl, .inl ⟨hreq, hterm, rfl⟩⟩

/-! ## Safe states do not fault -/

/-- INIT of an unloaded block drives only lines it has acquired (R201, R205). -/
theorem execInit_noFault {s : State} (hl : s.loaded = false) (ho : s.own = .all false) : NoFault (execInit s) := by
  by_cases hb : s.side.busy = .all false
  · exact noFault_of_answers ⟨_, execInit_free hl hb⟩
  · exact noFault_of_answers ⟨_, execInit_busy hl ho hb⟩

/-- No instruction of a safe block faults, loaded or not. -/
theorem exec_noFault_of_blockSafe (i : Instr) {s : State} (hs : BlockSafe s) : NoFault (exec i s) := by
  cases hl : s.loaded with
  | true => exact exec_noFault i hl (hs.whenLoaded hl).owned
  | false =>
    by_cases hi : i = .init
    · subst hi
      exact execInit_noFault hl (hs.whenUnloaded hl).released
    · rw [unloadedBlockRefusesEverythingButInit i s hl hi]
      exact noFault_refused _

/-- A step of the agents by themselves faults only where an instruction does. -/
theorem exec_fault_of_ownStep_fault {s : State} {f : Fault} (h : ownStep s = .fault f) : ∃ i, exec i s = .fault f := by
  unfold ownStep at h
  split_ifs at h
  · exact ⟨.wdCycle, h⟩
  · exact ⟨.shutdown, h⟩

/-- A step of the machine faults only where an instruction does, by induction on the turns that are passed over. -/
theorem exec_fault_of_step_fault {s : State} {f : Fault} (h : step s = .fault f) :
    ∃ i side rest, exec i (s.takeTurn side rest) = .fault f := by
  generalize hin : s.inbox = turns
  induction turns generalizing s with
  | nil =>
    obtain ⟨i, he⟩ := exec_fault_of_ownStep_fault ((step_own hin).symm.trans h)
    exact ⟨i, s.side, s.inbox, he⟩
  | cons turn rest ih =>
    have passed_over (hpass : step s = step { s with inbox := rest }) :
        ∃ i side left, exec i (s.takeTurn side left) = .fault f :=
      ih (s := { s with inbox := rest }) (hpass.symm.trans h) rfl
    cases turn with
    | wait dt => exact nomatch (step_wait hin).symm.trans h
    | present word side =>
      cases hd : decode word with
      | rejected e => exact passed_over (step_rejected hin hd)
      | instr i =>
        cases he : exec i (s.takeTurn side rest) with
        | refused r => exact passed_over (step_refused hin hd he)
        | fault g => exact ⟨i, side, rest, (step_present hin hd (by simp [he])).symm.trans h⟩
        | next t => exact ⟨i, side, rest, (step_present hin hd (by simp [he])).symm.trans h⟩

/-- Settles O54: a step that faults performs an instruction that faults, and in a safe block none does, whichever turn
it comes by. -/
theorem safeStatesNeverFault : Obligations.SafeStatesNeverFault := by
  intro s f hs h
  obtain ⟨hblock, -⟩ := (safe_iff s).1 hs
  obtain ⟨i, side, rest, he⟩ := exec_fault_of_step_fault h
  exact exec_noFault_of_blockSafe i (hblock.withInputs side rest s.fresh) f he

/-! ## A line that is not owned

Each operation that drives or reads the line is the fault (R222). -/

theorem requestOn_unowned {s : State} (ho : s.own.heat = false) :
    requestOn s = .fault (.lineNotOwned .heat) := by
  rw [requestOn]
  split_ifs <;> exact setHeater_unowned _ _ ho

theorem requestOff_unowned {s : State} (ho : s.own.heat = false) :
    requestOff s = .fault (.lineNotOwned .heat) :=
  setHeater_unowned _ _ ho

theorem forceOff_unowned {s : State} (ho : s.own.heat = false) :
    forceOff s = .fault (.lineNotOwned .heat) :=
  setHeater_unowned _ _ ho

theorem wdPublish_unowned {s : State} (ho : s.own.heat = false) (hb : breach s s.result = true) :
    wdPublish s = .fault (.lineNotOwned .heat) := by
  have hbreach : breach (updateTemperature s.result s) s.result = true := hb
  rw [wdPublish, if_pos hbreach, forceOff_unowned (by exact ho), andThen_fault]

/-! The instructions that write the heat line fault where the request they raise does. -/

/-- The end of a command adds no fault. -/
theorem andThen_end_eq_fault {o : Result} {g : State → State} {f : Fault} :
    andThen o (fun t => .next (g t)) = .fault f ↔ o = .fault f := by
  rw [andThen_eq_fault, or_iff_left]
  rintro ⟨t, -, h⟩
  cases h

theorem execRequestOn_eq_fault {ticks : Ticks} {s : State} {f : Fault} :
    execRequestOn ticks s = .fault f ↔ s.loaded = true ∧ requestOn s = .fault f := by
  rw [execRequestOn, whenLoaded_eq_fault, andThen_end_eq_fault]

theorem execRequestOff_eq_fault {ticks : Ticks} {s : State} {f : Fault} :
    execRequestOff ticks s = .fault f ↔ s.loaded = true ∧ requestOff s = .fault f := by
  rw [execRequestOff, whenLoaded_eq_fault, andThen_end_eq_fault]

theorem execForceOff_eq_fault {ticks : Ticks} {s : State} {f : Fault} :
    execForceOff ticks s = .fault f ↔ s.loaded = true ∧ forceOff s = .fault f := by
  rw [execForceOff, whenLoaded_eq_fault, andThen_end_eq_fault]

theorem execReleaseStatus_eq_fault {byte : Byte} {s : State} {f : Fault} :
    execReleaseStatus byte s = .fault f ↔ s.loaded = true ∧ forceOff s = .fault f := by
  rw [execReleaseStatus, whenLoaded_eq_fault, andThen_end_eq_fault]

theorem execWriteStatusOn_eq_fault {s : State} {f : Fault} :
    execWriteStatusOn s = .fault f ↔ s.loaded = true ∧ s.side.xferFault = false ∧ requestOn s = .fault f := by
  rw [execWriteStatusOn, whenLoaded_eq_fault, whenTransferred_eq_fault, andThen_end_eq_fault]

theorem execWriteStatusOff_eq_fault {byte : Byte} {s : State} {f : Fault} :
    execWriteStatusOff byte s = .fault f ↔
      s.loaded = true ∧ s.side.xferFault = false ∧ requestOff s = .fault f := by
  rw [execWriteStatusOff, whenLoaded_eq_fault, whenTransferred_eq_fault, andThen_end_eq_fault]

/-! The micro-steps that drive CS, drive CLK and read DATA. -/

theorem slMicroStep_cs_unowned {s : State} (ho : s.own.cs = false) (hp : s.slph = .select ∨ s.slph = .deselect) :
    slMicroStep s = .fault (.lineNotOwned .cs) := by
  rw [slMicroStep]
  obtain hp | hp := hp <;> (rw [hp]; exact andThen_eq_fault.2 (.inl (lineWrite_unowned _ ho)))

theorem slMicroStep_clk_unowned {s : State} (ho : s.own.clk = false) (hp : s.slph = .rise ∨ s.slph = .fall) :
    slMicroStep s = .fault (.lineNotOwned .clk) := by
  rw [slMicroStep]
  obtain hp | hp := hp <;> (rw [hp]; exact andThen_eq_fault.2 (.inl (lineWrite_unowned _ ho)))

theorem slMicroStep_data_unowned {s : State} (ho : s.own.data = false) (hp : s.slph = .sample) :
    slMicroStep s = .fault (.lineNotOwned .data) := by
  rw [slMicroStep, hp]
  exact lineRead_unowned _ ho

/-! A sample faults at the first line it meets that is not owned: CS in SL_SELECT, CLK in SL_RISE, DATA in SL_SAMPLE. -/

section
variable {s : State} (hp : s.slph = .select)
include hp

theorem slMicroSteps_cs_unowned (n : Nat) (hcs : s.own.cs = false) :
    slMicroSteps (n + 1) s = .fault (.lineNotOwned .cs) := by
  rw [slMicroSteps_succ, slMicroStep_cs_unowned hcs (.inl hp), andThen_fault]

theorem slMicroSteps_clk_unowned (n : Nat) (hcs : s.own.cs = true) (hclk : s.own.clk = false) :
    slMicroSteps (n + 2) s = .fault (.lineNotOwned .clk) := by
  rw [slMicroSteps_succ, slMicroStep_select hp hcs, andThen_next,
    slMicroSteps_succ, slMicroStep_clk_unowned (by exact hclk) (.inl rfl), andThen_fault]

theorem slMicroSteps_data_unowned (n : Nat) (hcs : s.own.cs = true) (hclk : s.own.clk = true)
    (hdata : s.own.data = false) : slMicroSteps (n + 4) s = .fault (.lineNotOwned .data) := by
  rw [slMicroSteps_succ, slMicroStep_select hp hcs, andThen_next,
    slMicroSteps_succ, slMicroStep_rise (by rfl) (by exact hclk), andThen_next,
    slMicroSteps_succ, slMicroStep_holdHi (by rfl), andThen_next,
    slMicroSteps_succ, slMicroStep_data_unowned (by exact hdata) (by rfl), andThen_fault]

end

/-- Settles O27: by the heat line's operations, the micro-steps of the watchdog, and SAMPLE. -/
theorem unownedLinesFault : Obligations.UnownedLinesFault := by
  intro s hl
  refine ⟨?heat, ?micro, ?sample⟩
  case heat =>
    intro ho b k
    refine ⟨(execRequestOn_eq_fault (ticks := k)).2 ⟨hl, requestOn_unowned ho⟩,
      (execRequestOff_eq_fault (ticks := k)).2 ⟨hl, requestOff_unowned ho⟩,
      (execForceOff_eq_fault (ticks := k)).2 ⟨hl, forceOff_unowned ho⟩,
      (execReleaseStatus_eq_fault (byte := b)).2 ⟨hl, forceOff_unowned ho⟩, ?writes, ?publish⟩
    case writes =>
      exact fun hx => ⟨execWriteStatusOn_eq_fault.2 ⟨hl, hx, requestOn_unowned ho⟩,
        (execWriteStatusOff_eq_fault (byte := b)).2 ⟨hl, hx, requestOff_unowned ho⟩⟩
    case publish =>
      exact fun hw habove hheating =>
        (execWdCycle_publish hl hw).trans (wdPublish_unowned ho ((breach_iff _ _).2 ⟨habove, hheating⟩))
  case micro =>
    intro hw
    have hstep (hp : s.slph ≠ .idle) : exec .wdCycle s = slMicroStep (noResponse s) := execWdCycle_busy hl hw hp
    refine ⟨?cs, ?clk, ?data⟩
    case cs => exact fun ho hp => (hstep (by obtain hp | hp := hp <;> simp [hp])).trans (slMicroStep_cs_unowned ho hp)
    case clk => exact fun ho hp => (hstep (by obtain hp | hp := hp <;> simp [hp])).trans (slMicroStep_clk_unowned ho hp)
    case data => exact fun ho hp => (hstep (by simp [hp])).trans (slMicroStep_data_unowned ho hp)
  case sample =>
    intro hw hp frame
    have hrun := execSample_started frame hl hw hp
    exact ⟨fun hcs => hrun.trans (slMicroSteps_cs_unowned (by exact hp) 81 hcs),
      fun hcs hclk => hrun.trans (slMicroSteps_clk_unowned (by exact hp) 80 hcs hclk),
      fun hcs hclk hdata => hrun.trans (slMicroSteps_data_unowned (by exact hp) 78 hcs hclk hdata)⟩

end Sys2Proof.Machine
